-- ==== Sys2Proof/Word.lean ====
section
/-! DEFINITION. The word types of the framing engine: the byte of the link and of both buffers (R64 of `20_memory.md`),
and the wider fields of a frame (R96 to R98 of `30_encoding.md`). Bit 0 is the least significant bit (R10). -/

namespace Sys2Proof

/-- One byte of the link, of a buffer or of a checksum. -/
abbrev Byte := BitVec 8

/-- A 16-bit field: a declared length, an instance id, a count, the chunk size. -/
abbrev Half := BitVec 16

/-- An object id (R97). -/
abbrev ObjId := BitVec 32

end Sys2Proof
end

