-- ==== Sys2Proof/Config.lean ====
section
/-! DEFINITION. What an implementation fixes: the parameters of Table P (R8 of `00_scope.md`), with the defaults and the
constraints of that table, and the values the spec leaves unspecified after `INIT` (R340, U6). -/

namespace Sys2Proof

/-- The five message kinds (R15, R94). -/
inductive Kind where
  | obj | objReq | objAck | ack | nack
  deriving DecidableEq, Repr

/-- `MIN_HEADER`: the header without an instance id, 1 + 1 + 2 + 4 bytes (Table P). -/
def minHeader : Nat := 8

/-- `MAX_HEADER`: the header with an instance id (Table P). -/
def maxHeader : Nat := 10

/-- `CHECKSUM_LEN` (Table P). -/
def checksumLen : Nat := 1

/-- The parameters of Table P that an implementation chooses (R8). `MTU` is the register `mtu` of State. -/
structure Config where
  /-- `CRC_POLY` (D1). -/
  crcPoly : Byte
  /-- `CRC_INIT` (D2). -/
  crcInit : Byte
  /-- `SYNC_VAL` (D3). -/
  syncVal : Byte
  /-- `VER_MASK` (D4). -/
  verMask : Byte
  /-- `VER_VAL` (D4). -/
  verVal : Byte
  /-- `KIND_OBJ` (D5). -/
  kindObj : Byte
  /-- `KIND_OBJ_REQ` (D5). -/
  kindObjReq : Byte
  /-- `KIND_OBJ_ACK` (D5). -/
  kindObjAck : Byte
  /-- `KIND_ACK` (D5). -/
  kindAck : Byte
  /-- `KIND_NACK` (D5). -/
  kindNack : Byte
  /-- `MAX_PAYLOAD` (D7). -/
  maxPayload : Nat
  /-- `ALL_INSTANCES`, read by the host only (D32). -/
  allInstances : Half
  /-- `CTR_W`, the width of a statistics counter in bits (D17). -/
  ctrW : Nat
  deriving DecidableEq, Repr

/-- The column "default" of Table P (R8). -/
def Config.default : Config where
  crcPoly := 0x07
  crcInit := 0x00
  syncVal := 0x3C
  verMask := 0xF8
  verVal := 0x20
  kindObj := 0
  kindObjReq := 1
  kindObjAck := 2
  kindAck := 3
  kindNack := 4
  maxPayload := 255
  allInstances := 0xFFFF
  ctrW := 32

/-- `MAX_FRAME = MAX_HEADER + MAX_PAYLOAD + CHECKSUM_LEN` (Table P). -/
def Config.maxFrame (c : Config) : Nat := maxHeader + c.maxPayload + checksumLen

/-- The five kind codes in the order of R94. -/
def Config.kindCodes (c : Config) : List Byte :=
  [c.kindObj, c.kindObjReq, c.kindObjAck, c.kindAck, c.kindNack]

/-- The column "constraint" of Table P (R8): the mask is not zero, the version value lies in the mask and the five codes
outside it, the codes are pairwise distinct, and a frame's length fits `rx_count`. -/
def Config.wf (c : Config) : Bool :=
  c.verMask != 0 && (c.verVal &&& ~~~c.verMask) == 0
    && c.kindCodes.all (fun k => (k &&& c.verMask) == 0)
    && decide c.kindCodes.Nodup && decide (c.maxPayload ≤ 65524)

/-- FREE VALUE (U6, log 6). What `INIT` leaves in the registers whose value the reset of R340 leaves unspecified: register
number `reg` at the draw `draw`. It has no body, so nothing can be proved of a value of it. -/
opaque Config.unspecified : (draw reg : Nat) → BitVec 32

end Sys2Proof
end

