-- ==== Sys2Proof/Syntax.lean ====
section
/-! DEFINITION. The instructions: one constructor per row of `spec/opcode_table.json`. The twelve operations of the command
port (R110, R111 of `30_encoding.md`), the four reserved operation codes (R112), the five frame kinds (R94) and the three
reserved kind codes of the default parameters (R95). -/

namespace Sys2Proof

/-- An instruction with its operands (R113). The pair (`has_inst`, `instid`) is an optional 16-bit value and the pair
(`n`, payload) a byte list, as R113 allows. The frame rows are the pseudo-operation `rx.frame` of R115 (log 12). -/
inductive Instr where
  | init (mtu : Half)
  | rxByte (b : Byte)
  | crcInit
  | crcUpd (b : Byte)
  | crcBlk (bytes : List Byte)
  | statGet
  | statReset
  | txObj (objid : ObjId) (inst : Option Half) (payload : List Byte)
  | txObjReq (objid : ObjId) (inst : Option Half) (payload : List Byte)
  | txObjAck (objid : ObjId) (inst : Option Half) (payload : List Byte)
  | txAck (objid : ObjId) (inst : Option Half) (payload : List Byte)
  | txNack (objid : ObjId) (inst : Option Half) (payload : List Byte)
  | reservedOp7
  | reservedOpD
  | reservedOpE
  | reservedOpF
  | frameObj (objid : ObjId) (inst : Option Half) (payload : List Byte)
  | frameObjReq (objid : ObjId) (inst : Option Half) (payload : List Byte)
  | frameObjAck (objid : ObjId) (inst : Option Half) (payload : List Byte)
  | frameAck (objid : ObjId) (inst : Option Half) (payload : List Byte)
  | frameNack (objid : ObjId) (inst : Option Half) (payload : List Byte)
  | frameReservedKind5
  | frameReservedKind6
  | frameReservedKind7
  deriving DecidableEq, Repr

/-- The row of the opcode table an instruction belongs to, without its operands. -/
inductive Op where
  | init | rxByte | crcInit | crcUpd | crcBlk | statGet | statReset
  | txObj | txObjReq | txObjAck | txAck | txNack
  | reservedOp7 | reservedOpD | reservedOpE | reservedOpF
  | frameObj | frameObjReq | frameObjAck | frameAck | frameNack
  | frameReservedKind5 | frameReservedKind6 | frameReservedKind7
  deriving DecidableEq, Repr

/-- The operand formats of R113. -/
inductive Format where
  | z | b | m | s | t
  deriving DecidableEq, Repr

end Sys2Proof
end

