-- ==== Sys2Proof/WellFormed.lean ====
section
/-! DEFINITION. Which instructions the operand fields of R113 can express: `n` is 16 bits, so a byte list has at most
65535 bytes. Every other operand is as wide as its type. -/

namespace Sys2Proof

/-- The number of bytes of an operand list fits the 16-bit field `n` (R113). -/
def countFits (bytes : List Byte) : Bool := decide (bytes.length < 65536)

/-- An instruction whose operands fit their fields (R113). -/
def Instr.wf : Instr → Bool
  | .init _ => true
  | .rxByte _ => true
  | .crcInit => true
  | .crcUpd _ => true
  | .crcBlk bytes => countFits bytes
  | .statGet => true
  | .statReset => true
  | .txObj _ _ payload => countFits payload
  | .txObjReq _ _ payload => countFits payload
  | .txObjAck _ _ payload => countFits payload
  | .txAck _ _ payload => countFits payload
  | .txNack _ _ payload => countFits payload
  | .reservedOp7 => true
  | .reservedOpD => true
  | .reservedOpE => true
  | .reservedOpF => true
  | .frameObj _ _ payload => countFits payload
  | .frameObjReq _ _ payload => countFits payload
  | .frameObjAck _ _ payload => countFits payload
  | .frameAck _ _ payload => countFits payload
  | .frameNack _ _ payload => countFits payload
  | .frameReservedKind5 => true
  | .frameReservedKind6 => true
  | .frameReservedKind7 => true

end Sys2Proof
end

