-- ==== Sys2Proof/Decode.lean ====
section
/-! DEFINITION. The words of the command port: from bytes to an instruction or a named refusal, total on any bytes, and back.
R111 gives an operation code of 4 bits and R113 the operand fields in order. "How these fields are laid out on physical
wires is not specified" (R113): the packing in bytes is the model's own (DESIGN CHOICE, log 1). The first byte is the code
of the opcode table; each operand field follows in whole bytes, low byte first; a byte list follows its count `n`. -/

namespace Sys2Proof

/-- Why bytes on the command port are no command. All of these are refused (U5, R112), and refusing is safe. -/
inductive DecodeError where
  /-- No byte at all. -/
  | empty
  /-- The first byte is the word of no row of the opcode table. -/
  | noSuchWord (first : Byte)
  /-- The bytes end inside an operand field, or there are fewer operand bytes than `n` says (U5). -/
  | truncated
  /-- `has_inst` is not 0 or 1 (U5). -/
  | hasInstNotBit (field : Byte)
  /-- More bytes than the operands take, so `n` is not the number of bytes supplied (U5). -/
  | excessBytes
  deriving DecidableEq, Repr

/-- The word of each row of `spec/opcode_table.json`: the operation code in bits 3 to 0 for the sixteen codes of R111 (bits
7 to 4 zero), the type byte with the default parameters for the eight frame rows of R94 and R95. -/
def Op.word : Op → Byte
  | .init => 0x00
  | .rxByte => 0x01
  | .crcInit => 0x02
  | .crcUpd => 0x03
  | .crcBlk => 0x04
  | .statGet => 0x05
  | .statReset => 0x06
  | .reservedOp7 => 0x07
  | .txObj => 0x08
  | .txObjReq => 0x09
  | .txObjAck => 0x0A
  | .txAck => 0x0B
  | .txNack => 0x0C
  | .reservedOpD => 0x0D
  | .reservedOpE => 0x0E
  | .reservedOpF => 0x0F
  | .frameObj => 0x20
  | .frameObjReq => 0x21
  | .frameObjAck => 0x22
  | .frameAck => 0x23
  | .frameNack => 0x24
  | .frameReservedKind5 => 0x25
  | .frameReservedKind6 => 0x26
  | .frameReservedKind7 => 0x27

/-- Every row, in the table's order. -/
def Op.all : List Op :=
  [.init, .rxByte, .crcInit, .crcUpd, .crcBlk, .statGet, .statReset,
   .txObj, .txObjReq, .txObjAck, .txAck, .txNack,
   .reservedOp7, .reservedOpD, .reservedOpE, .reservedOpF]
  ++ [.frameObj, .frameObjReq, .frameObjAck, .frameAck, .frameNack,
   .frameReservedKind5, .frameReservedKind6, .frameReservedKind7]

/-- The row whose word is `first`. -/
def Op.ofWord (first : Byte) : Option Op := Op.all.find? (fun o => o.word == first)

/-- The operand format of each row (R111; the frame rows take the operands of `rx.frame`, R115, in format `T`). -/
def Op.format : Op → Format
  | .init => .m
  | .rxByte => .b
  | .crcInit => .z
  | .crcUpd => .b
  | .crcBlk => .s
  | .statGet => .z
  | .statReset => .z
  | .txObj => .t
  | .txObjReq => .t
  | .txObjAck => .t
  | .txAck => .t
  | .txNack => .t
  | .reservedOp7 => .z
  | .reservedOpD => .z
  | .reservedOpE => .z
  | .reservedOpF => .z
  | .frameObj => .t
  | .frameObjReq => .t
  | .frameObjAck => .t
  | .frameAck => .t
  | .frameNack => .t
  | .frameReservedKind5 => .z
  | .frameReservedKind6 => .z
  | .frameReservedKind7 => .z

/-- The row of an instruction. -/
def Instr.op : Instr → Op
  | .init _ => .init
  | .rxByte _ => .rxByte
  | .crcInit => .crcInit
  | .crcUpd _ => .crcUpd
  | .crcBlk _ => .crcBlk
  | .statGet => .statGet
  | .statReset => .statReset
  | .txObj _ _ _ => .txObj
  | .txObjReq _ _ _ => .txObjReq
  | .txObjAck _ _ _ => .txObjAck
  | .txAck _ _ _ => .txAck
  | .txNack _ _ _ => .txNack
  | .reservedOp7 => .reservedOp7
  | .reservedOpD => .reservedOpD
  | .reservedOpE => .reservedOpE
  | .reservedOpF => .reservedOpF
  | .frameObj _ _ _ => .frameObj
  | .frameObjReq _ _ _ => .frameObjReq
  | .frameObjAck _ _ _ => .frameObjAck
  | .frameAck _ _ _ => .frameAck
  | .frameNack _ _ _ => .frameNack
  | .frameReservedKind5 => .frameReservedKind5
  | .frameReservedKind6 => .frameReservedKind6
  | .frameReservedKind7 => .frameReservedKind7

/-- The operands of any format: the fields a format does not have are empty. -/
structure Operands where
  b : Byte := 0
  mtu : Half := 0
  objid : ObjId := 0
  inst : Option Half := none
  bytes : List Byte := []
  deriving DecidableEq, Repr

/-- The instruction of a row with its operands. -/
def Op.build : Op → Operands → Instr
  | .init, a => .init a.mtu
  | .rxByte, a => .rxByte a.b
  | .crcInit, _ => .crcInit
  | .crcUpd, a => .crcUpd a.b
  | .crcBlk, a => .crcBlk a.bytes
  | .statGet, _ => .statGet
  | .statReset, _ => .statReset
  | .txObj, a => .txObj a.objid a.inst a.bytes
  | .txObjReq, a => .txObjReq a.objid a.inst a.bytes
  | .txObjAck, a => .txObjAck a.objid a.inst a.bytes
  | .txAck, a => .txAck a.objid a.inst a.bytes
  | .txNack, a => .txNack a.objid a.inst a.bytes
  | .reservedOp7, _ => .reservedOp7
  | .reservedOpD, _ => .reservedOpD
  | .reservedOpE, _ => .reservedOpE
  | .reservedOpF, _ => .reservedOpF
  | .frameObj, a => .frameObj a.objid a.inst a.bytes
  | .frameObjReq, a => .frameObjReq a.objid a.inst a.bytes
  | .frameObjAck, a => .frameObjAck a.objid a.inst a.bytes
  | .frameAck, a => .frameAck a.objid a.inst a.bytes
  | .frameNack, a => .frameNack a.objid a.inst a.bytes
  | .frameReservedKind5, _ => .frameReservedKind5
  | .frameReservedKind6, _ => .frameReservedKind6
  | .frameReservedKind7, _ => .frameReservedKind7

/-- Takes the first `n` bytes off a byte list, if it has that many. -/
def takeBytes : Nat → List Byte → Option (List Byte × List Byte)
  | 0, bs => some ([], bs)
  | _ + 1, [] => none
  | n + 1, b :: bs => (takeBytes n bs).map (fun r => (b :: r.1, r.2))

/-- The number whose bytes, low byte first, are `bs`. -/
def natOfBytes : List Byte → Nat
  | [] => 0
  | b :: bs => b.toNat + 256 * natOfBytes bs

/-- The `n` low bytes of a number, low byte first. -/
def bytesOfNat : Nat → Nat → List Byte
  | 0, _ => []
  | n + 1, v => BitVec.ofNat 8 v :: bytesOfNat n (v / 256)

/-- Format `S` (R113): `n`, 16 bits, then `n` bytes. -/
def parseCounted (bs : List Byte) : Except DecodeError (List Byte × List Byte) :=
  match takeBytes 2 bs with
  | none => .error .truncated
  | some (n, bs) =>
    match takeBytes (natOfBytes n) bs with
    | none => .error .truncated
    | some r => .ok r

/-- Format `T` after `objid` (R113): `has_inst` in a byte of its own, `instid` (ignored when `has_inst` is 0), `n`, then
`n` bytes of payload. -/
def parseTail (objid : ObjId) (bs : List Byte) : Except DecodeError (Operands × List Byte) :=
  match takeBytes 1 bs with
  | none => .error .truncated
  | some (h, bs) =>
    match takeBytes 2 bs with
    | none => .error .truncated
    | some (i, bs) =>
      let hasInst := natOfBytes h
      if 1 < hasInst then .error (.hasInstNotBit (BitVec.ofNat 8 hasInst))
      else match parseCounted bs with
        | .error e => .error e
        | .ok (payload, rest) =>
          .ok ({ objid := objid
                 inst := if hasInst = 0 then none else some (BitVec.ofNat 16 (natOfBytes i))
                 bytes := payload }, rest)

/-- The operand fields of a format, in the order of R113, and the bytes after them. -/
def parseOperands : Format → List Byte → Except DecodeError (Operands × List Byte)
  | .z, bs => .ok ({}, bs)
  | .b, bs =>
    match takeBytes 1 bs with
    | none => .error .truncated
    | some (b, rest) => .ok ({ b := BitVec.ofNat 8 (natOfBytes b) }, rest)
  | .m, bs =>
    match takeBytes 2 bs with
    | none => .error .truncated
    | some (m, rest) => .ok ({ mtu := BitVec.ofNat 16 (natOfBytes m) }, rest)
  | .s, bs =>
    match parseCounted bs with
    | .error e => .error e
    | .ok (bytes, rest) => .ok ({ bytes := bytes }, rest)
  | .t, bs =>
    match takeBytes 4 bs with
    | none => .error .truncated
    | some (o, bs) => parseTail (BitVec.ofNat 32 (natOfBytes o)) bs

/-- The instruction at the head of a byte list, and the bytes after it. -/
def decodePrefix : List Byte → Except DecodeError (Instr × List Byte)
  | [] => .error .empty
  | first :: bs =>
    match Op.ofWord first with
    | none => .error (.noSuchWord first)
    | some o =>
      match parseOperands o.format bs with
      | .error e => .error e
      | .ok (a, rest) => .ok (o.build a, rest)

/-- One command of the command port: all its bytes are one instruction's (U5). -/
def decode (bs : List Byte) : Except DecodeError Instr :=
  match decodePrefix bs with
  | .error e => .error e
  | .ok (i, []) => .ok i
  | .ok (_, _ :: _) => .error .excessBytes

/-- Format `S`: the count and the bytes (R113). -/
def countedBytes (bytes : List Byte) : List Byte := bytesOfNat 2 bytes.length ++ bytes

/-- Format `T` (R113). The ignored `instid` of an omitted instance id is written as zero. -/
def frameOperandBytes (objid : ObjId) (inst : Option Half) (payload : List Byte) : List Byte :=
  bytesOfNat 4 objid.toNat
    ++ (match inst with
        | none => [0x00, 0x00, 0x00]
        | some v => 0x01 :: bytesOfNat 2 v.toNat)
    ++ countedBytes payload

/-- The operand bytes of an instruction, by its format (R113). -/
def Instr.operandBytes : Instr → List Byte
  | .init mtu => bytesOfNat 2 mtu.toNat
  | .rxByte b => [b]
  | .crcInit => []
  | .crcUpd b => [b]
  | .crcBlk bytes => countedBytes bytes
  | .statGet => []
  | .statReset => []
  | .txObj objid inst payload => frameOperandBytes objid inst payload
  | .txObjReq objid inst payload => frameOperandBytes objid inst payload
  | .txObjAck objid inst payload => frameOperandBytes objid inst payload
  | .txAck objid inst payload => frameOperandBytes objid inst payload
  | .txNack objid inst payload => frameOperandBytes objid inst payload
  | .reservedOp7 => []
  | .reservedOpD => []
  | .reservedOpE => []
  | .reservedOpF => []
  | .frameObj objid inst payload => frameOperandBytes objid inst payload
  | .frameObjReq objid inst payload => frameOperandBytes objid inst payload
  | .frameObjAck objid inst payload => frameOperandBytes objid inst payload
  | .frameAck objid inst payload => frameOperandBytes objid inst payload
  | .frameNack objid inst payload => frameOperandBytes objid inst payload
  | .frameReservedKind5 => []
  | .frameReservedKind6 => []
  | .frameReservedKind7 => []

/-- The words of an instruction: its row's word, then its operands. -/
def encode (i : Instr) : List Byte := i.op.word :: i.operandBytes

/-- The bytes of a word numbered as the opcode table numbers its bits: bit 0 is the least significant bit of the first
byte, bits 15 to 8 are the second byte. -/
def tableBytes (nbits w : Nat) : List Byte := bytesOfNat ((nbits + 7) / 8) w

/-- The instruction at the head of a table word whose further bits are all zero (operand words of zeros), and the bytes
after it. The zeros reach past the longest instruction: 10 bytes of fields and 65535 operand bytes. -/
def decodeTableBytes (nbits w : Nat) : Except DecodeError (Instr × List Byte) :=
  decodePrefix (tableBytes nbits w ++ List.replicate 65545 0)

/-- The instruction the decoder reads from a table word (bits above `nbits` zero). -/
def decodeTableWord (nbits w : Nat) : Option Instr :=
  match decodeTableBytes nbits w with
  | .error _ => none
  | .ok (i, _) => some i

end Sys2Proof
end

