-- ==== Sys2Proof/Machine/State.lean ====
section
/-! DEFINITION. The state of one framing engine and of the host around it, as plain data: Table S of `10_state.md` (R44), the
ports of R45 to R47, the pending inputs, and the host's own state (`44_host_contract.md`, R43). -/

namespace Sys2Proof.Machine

/-- The states of the receive sequencer (R22), in the document's order. -/
inductive RxState where
  | sync | type | size | objid | instid | data | cs
  deriving DecidableEq, Repr

/-- A buffer: an address space of bytes of its own (R60, R61), as (index, byte) pairs, indices strictly rising. An index
that is not listed holds no value: the reset leaves every byte unspecified (R32, R33, log 7). -/
abbrev Memory := List Host.Cell

/-- The one canonical form of a buffer: indices strictly rising. No entry can equal what an unlisted index reads as,
since an unlisted index reads as no value. -/
abbrev Memory.wf (m : Memory) : Prop := m.Pairwise (fun x y => x.1 < y.1)

/-- The decoder's field registers (R23 to R31). -/
structure RxRegs where
  /-- `rx_cs` (R23). -/
  cs : Byte
  /-- `rx_count` (R24). -/
  count : Half
  /-- `rx_fld` (R25). -/
  fld : Half
  /-- `rx_type` (R26). -/
  type : Byte
  /-- `rx_len` (R27). -/
  len : Half
  /-- `rx_objid` (R28). -/
  objid : ObjId
  /-- `rx_found` (R29). -/
  found : Bool
  /-- `rx_single` (R29). -/
  single : Bool
  /-- `rx_paylen` (R30). -/
  paylen : Half
  /-- `rx_instid` (R31). -/
  instid : Half
  deriving DecidableEq, Repr

/-- The statistics counters (R36 to R41), each a number below `2^CTR_W` (log 9). -/
structure Stats where
  rxBytes : Nat
  rxObjects : Nat
  rxErrors : Nat
  txBytes : Nat
  txObjects : Nat
  txErrors : Nat
  deriving DecidableEq, Repr

/-- Six cleared counters (R232, R340). -/
def Stats.zero : Stats := ⟨0, 0, 0, 0, 0, 0⟩

/-- A `Deliver` event (R45). `found = false` stands for the document's "unknown". -/
structure Deliver where
  kind : Kind
  objid : ObjId
  found : Bool
  instid : Half
  paylen : Half
  payload : List Byte
  deriving DecidableEq, Repr

/-- An output event of the block (R45, R46). -/
inductive Event where
  | deliver (d : Deliver)
  | sink (chunk : List Byte)
  deriving DecidableEq, Repr

/-- What the response port holds (R47): before any operation nothing, then the last operation's result. -/
inductive Response where
  | noneYet
  /-- Completion and nothing else. -/
  | done
  | ok
  | fail
  /-- The new `crc_acc`. -/
  | crc (value : Byte)
  /-- The six counters, one snapshot (R231). -/
  | counters (stats : Stats)
  deriving DecidableEq, Repr

/-- The causes of a resynchronisation (R301): ghost labels, visible on no port. -/
inductive Cause where
  | resyncVersion | resyncKind | errLenRange | errUnknownObj
  | errPayloadSize | errLenMismatch | errChecksum | errCount
  deriving DecidableEq, Repr

/-- What `ObjLookup` answers of one registered object (R9, R250). -/
structure ObjEntry where
  id : ObjId
  single : Bool
  size : Half
  deriving DecidableEq, Repr

/-- The value of one live instance in the host's object model (R250, R251). -/
structure StoredObject where
  id : ObjId
  instid : Half
  value : List Byte
  deriving DecidableEq, Repr

/-- What a pending transaction awaits (R264). -/
structure Awaited where
  objid : ObjId
  instid : Half
  deriving DecidableEq, Repr

/-- The taken transaction slot (R264): the object id and instance id waited on, and the completion signal. That a slot is
there is the "pending" flag. -/
structure Slot where
  awaited : Awaited
  /-- The completion signal: a matching inbound frame has been seen. -/
  signal : Bool
  deriving DecidableEq, Repr

/-- Whether a transaction is an acknowledged send or a request (R264). -/
inductive TxnKind where
  | ackedSend | request
  deriving DecidableEq, Repr

/-- A caller's wish to start a transaction (R264). -/
structure TxnRequest where
  kind : TxnKind
  objid : ObjId
  instid : Half
  deriving DecidableEq, Repr

/-- What a task of the host transmits for: a reply of Object Dispatch (R256, R257), a plain send (R263), an acknowledged
send or a request (R264). -/
inductive TaskRole where
  | reply | send | ackedSend | request
  deriving DecidableEq, Repr

/-- A `TX.*` operation whose operands the host has formed and that it has not issued yet (R261). -/
structure TxOp where
  kind : Kind
  objid : ObjId
  /-- The instance the operation is about, whether or not the frame carries it. -/
  about : Half
  /-- `has_inst` and `instid`. -/
  inst : Option Half
  payload : List Byte
  deriving DecidableEq, Repr

/-- A transmission of the host in progress. A wildcard send or reply issues several operations (R257, R261), and other
operations may fall between any two of them (R67, log 16). -/
structure Task where
  role : TaskRole
  objid : ObjId
  /-- The instance id the caller or the request named, the wildcard included. -/
  instid : Half
  /-- The instances still to be packed, in their order (D34). -/
  todo : List Half
  /-- The operation that is formed and waits to be issued. -/
  ready : Option TxOp
  /-- Whether an operation of this task has been issued and accepted. -/
  sent : Bool
  deriving DecidableEq, Repr

/-- What the host reports to a caller or, for a rejected wildcard update, reports without saying where (R255, N12). -/
inductive Report where
  /-- Fire-and-forget send handed to the transport (R263). -/
  | sent (objid : ObjId) (instid : Half)
  /-- Nothing transmitted: `pack` failed (D33) or the encoder rejected the payload (R261). -/
  | sendFailed (objid : ObjId) (instid : Half)
  /-- A transaction resolved before its timeout, its caller woken (R264). -/
  | resolved (a : Awaited)
  /-- A transaction timed out (R266). -/
  | timedOut (a : Awaited)
  /-- A transaction whose frame could not be sent (R261, R264). -/
  | txnFailed (a : Awaited)
  /-- An inbound update with the wildcard instance id (R255). -/
  | wildcardUpdate (objid : ObjId)
  deriving DecidableEq, Repr

/-- What a call of `pack` or `unpack` answers, a free draw of the environment (U8): `none` is a failure. A success comes with
bytes, which stand for what the host's object model leaves open in it (log 18). -/
abbrev Draw := Option (List Byte)

/-- A move of the host around the block. The moves carry the environment's free choices as data: what a `pack` or an
`unpack` answers (U8). Each move issues at most one operation of the block (R67). -/
inductive Move where
  /-- The object model is replaced: objects registered, instances created, values written (R250, R272). -/
  | objectModel (objects : List ObjEntry) (store : List StoredObject)
  /-- Object Dispatch is connected to the `Deliver` port (R45, R254, log 26). -/
  | connect
  /-- Object Dispatch takes the next `Deliver` event (R254). -/
  | dispatch (draw : Draw)
  /-- A caller's send-object without ack (R261, R263). -/
  | send (objid : ObjId) (instid : Half)
  /-- A caller's send-object with ack, or request-object (R261, R262, R264). -/
  | startTxn (r : TxnRequest)
  /-- The `k`-th caller blocked on the slot tries again (R265). -/
  | resume (k : Nat)
  /-- The `k`-th task packs its next instance (R257, R261). -/
  | pack (k : Nat) (draw : Draw)
  /-- The `k`-th task issues the operation it has ready (R257, R261). -/
  | issue (k : Nat)
  /-- The waiting caller takes the completion signal (R264). -/
  | wake
  /-- The timeout of the pending transaction passes (R266, U16). -/
  | timeout
  deriving DecidableEq, Repr

/-- One pending input: a command word on the command port, or a move of the host. -/
inductive Input where
  | command (word : List Byte)
  | move (m : Move)
  deriving DecidableEq, Repr

/-- The host around the block (`44_host_contract.md`). `INIT` frees the transaction slot (R341, R342); no other operation of
the block writes any of it. -/
structure Env where
  /-- The object model `ObjLookup` asks (R9, R250): the first entry of an id answers. -/
  objects : List ObjEntry
  /-- The values of the live instances (R251). -/
  store : List StoredObject
  /-- Whether Object Dispatch is connected to the `Deliver` port. If not, the block is alone (log 26). -/
  attached : Bool
  /-- How many `Deliver` events Object Dispatch has consumed (R254). -/
  dispatched : Nat
  /-- The transaction slot: taken, or free (R264). -/
  slot : Option Slot
  /-- The callers blocked on the slot (R265). -/
  blocked : List TxnRequest
  /-- The transmissions in progress, oldest first (R257, R261 to R264). -/
  tasks : List Task
  /-- What the host has reported, oldest first. -/
  reports : List Report
  deriving DecidableEq, Repr

/-- The whole state: the block (Table S, R44), its ports, and the host around it. -/
structure State where
  /-- The parameters of Table P (R8). No step writes them (log 8). -/
  cfg : Config
  /-- `rx_state` (R22). -/
  rxState : RxState
  /-- The decoder's field registers (R23 to R31). -/
  rx : RxRegs
  /-- `rx_buf` (R32, R60). -/
  rxBuf : Memory
  /-- `tx_buf` (R33, R61). -/
  txBuf : Memory
  /-- `tx_len` (R33). -/
  txLen : Half
  /-- `mtu` (R34). -/
  mtu : Half
  /-- Whether an `INIT` has been issued (R234, R343, log 10). -/
  initialised : Bool
  /-- `crc_acc` (R35). -/
  crcAcc : Byte
  /-- The six statistics counters (R36 to R41). -/
  stats : Stats
  /-- The response port (R47): the last operation's result. -/
  response : Response
  /-- The output trace (R11, R45, R46), oldest first. -/
  trace : List Event
  /-- The ghost log of causes (R301), oldest first. -/
  causes : List Cause
  /-- The model's own counter of free-value draws (log 6). -/
  freeDraws : Nat
  /-- The pending inputs, next first (log 2). -/
  inputs : List Input
  /-- The host around the block (R43). -/
  env : Env
  deriving DecidableEq, Repr

/-- Why a step stops with a fault. Each is raised only in states no run reaches, so all are safe. -/
inductive Fault where
  /-- The copy of `rx_buf` into a `Deliver` event meets a byte nothing has written. Raised by `RX.BYTE` in state `CS`.
  R49 derives that this never happens in a run. Safe. -/
  | unwrittenByte
  /-- A byte is stored at an index the buffer does not have. Raised by `RX.BYTE` in state `DATA`. R60 derives that the index
  is always below `MAX_PAYLOAD`. Safe. -/
  | indexOutsideBuffer
  /-- `rx_type` holds none of the five kinds when the frame is delivered. Raised by `RX.BYTE` in state `CS`. R26 writes
  `rx_type` only with one of the five. Safe. -/
  | noKindRecorded
  /-- `mtu` is zero when a frame is cut into chunks, so the loop of R206 would never end. Raised by `TX.*`. R34 gives
  `mtu >= 1`. Safe. -/
  | zeroChunkSize
  deriving DecidableEq, Repr

/-- Why a command is refused. Refusing is safe: nothing is proved of what the block would do. -/
inductive Refusal where
  /-- The instruction has no meaning in this model yet. Raised by `exec` only. Safe. -/
  | notModelled (mnemonic : String)
  /-- A reserved operation code (R112, R234). Raised by the four reserved operations. Safe. -/
  | reservedOperation (op : BitVec 4)
  /-- `INIT` with `mtu = 0` (R230, R234). Raised by `INIT`. Safe. -/
  | zeroMtu
  /-- An operation other than `INIT` before the first `INIT` (R234, R343, C9). Raised by every other operation. Safe. -/
  | beforeInit
  /-- Bytes on the command port that are no command (U5). Raised by `step`. Safe. -/
  | badCommand (e : DecodeError)
  deriving DecidableEq, Repr

/-- The three outcomes of an operation. -/
abbrev Result := Host.Outcome State Fault Refusal

/-- The values named for the decoder registers after power-on: the spec leaves them unspecified (DESIGN CHOICE, log 4). -/
def RxRegs.reset : RxRegs where
  cs := 0
  count := 0
  fld := 0
  type := 0
  len := 0
  objid := 0
  found := false
  single := false
  paylen := 0
  instid := 0

/-- The host at power-on: the transaction slot free (R341), nothing registered, nothing in progress, nothing reported
(log 11, log 16), Object Dispatch not connected yet (log 26). -/
def Env.reset : Env where
  objects := []
  store := []
  attached := false
  dispatched := 0
  slot := none
  blocked := []
  tasks := []
  reports := []

/-- Right after reset (R340, R341): `SYNC`, `crc_acc = CRC_INIT`, six counters 0, with the default parameters (R8). The
values the spec leaves unspecified are named in log 4, log 5 and log 7; no `INIT` has been issued (R342). -/
def State.reset : State where
  cfg := Config.default
  rxState := .sync
  rx := RxRegs.reset
  rxBuf := []
  txBuf := []
  txLen := 0
  mtu := 1
  initialised := false
  crcAcc := Config.default.crcInit
  stats := Stats.zero
  response := .noneYet
  trace := []
  causes := []
  freeDraws := 0
  inputs := []
  env := Env.reset

end Sys2Proof.Machine
end

