-- ==== Sys2Proof/Machine/Operands.lean ====
section
/-! DEFINITION. Every operand and field form of a frame: the byte order of a multi-byte field in both directions (R63, R101),
the kind codes and the type byte (R93, R94), and what `ObjLookup` answers (R9, R250). -/

namespace Sys2Proof.Machine

/-- `le16(v)` (R11, R63). -/
def le16 (v : Half) : List Byte := [v.extractLsb' 0 8, v.extractLsb' 8 8]

/-- `le32(v)` (R11, R63). -/
def le32 (v : ObjId) : List Byte :=
  [v.extractLsb' 0 8, v.extractLsb' 8 8, v.extractLsb' 16 8, v.extractLsb' 24 8]

/-- A received byte put into a 16-bit field at byte index `fld`: `r | (zext_16(b) << (8 * fld))` (R154, R158). -/
def putByte16 (r : Half) (b : Byte) (fld : Half) : Half := r ||| (b.setWidth 16 <<< (8 * fld.toNat))

/-- A received byte put into a 32-bit field at byte index `fld`: `r | (zext_32(b) << (8 * fld))` (R155). -/
def putByte32 (r : ObjId) (b : Byte) (fld : Half) : ObjId := r ||| (b.setWidth 32 <<< (8 * fld.toNat))

/-- The kind code of a message kind (R94, Table P). -/
def codeOf (c : Config) : Kind → Byte
  | .obj => c.kindObj
  | .objReq => c.kindObjReq
  | .objAck => c.kindObjAck
  | .ack => c.kindAck
  | .nack => c.kindNack

/-- The type byte of a kind: `VER_VAL | code` (R93, R94). -/
def typeByte (c : Config) (k : Kind) : Byte := c.verVal ||| codeOf c k

/-- The kind whose code the bits of a type byte outside `VER_MASK` hold, if they hold one (R26, R93, R153). -/
def kindOf (c : Config) (type : Byte) : Option Kind :=
  [Kind.obj, .objReq, .objAck, .ack, .nack].find? (fun k => codeOf c k == (type &&& ~~~c.verMask))

/-- `rx_kind`: the name of `rx_type` (R26). -/
def rxKind (s : State) : Option Kind := kindOf s.cfg s.rx.type

/-- `ObjLookup(id)` (R9, R250): the answer of the object model as it is now. -/
def objLookup (s : State) (id : ObjId) : Option ObjEntry := s.env.objects.find? (fun e => e.id == id)

/-- The number of instance-id bytes of a frame about an object of this cardinality (R96, R156). -/
def instLen (found single : Bool) : Nat := if found && !single then 2 else 0

/-- `pay_len` (R156): zero for request, ack and nack kinds, else the model's encoded size of the object. -/
def payLen (kind : Option Kind) (r : Option ObjEntry) : Nat :=
  match kind with
  | some .objReq => 0
  | some .ack => 0
  | some .nack => 0
  | _ =>
    match r with
    | some e => e.size.toNat
    | none => 0

end Sys2Proof.Machine
end

