-- ==== Sys2Proof/Machine/Flags.lean ====
section
/-! DEFINITION. Every test and every counter: counter arithmetic (R11, R235), the decoder's tests (R153, R154, R156, R160),
and the increments of the statistics (R36 to R41). -/

namespace Sys2Proof.Machine

/-- `a + b` on a counter: modulo `2^CTR_W` (R11, R235). -/
def ctrAdd (c : Config) (a b : Nat) : Nat := (a + b) % 2 ^ c.ctrW

/-- The version tag of a type byte is right (R93, R153). -/
def versionOk (c : Config) (type : Byte) : Bool := (type &&& c.verMask) == c.verVal

/-- The declared length lies in `[MIN_HEADER, MAX_HEADER + MAX_PAYLOAD]`, both ends included (R154). -/
def lenInRange (c : Config) (len : Half) : Bool :=
  decide (minHeader ≤ len.toNat) && decide (len.toNat ≤ maxHeader + c.maxPayload)

/-- The payload is not longer than `MAX_PAYLOAD`; a payload of exactly that length fits (R156, R207). -/
def payloadFits (c : Config) (n : Nat) : Bool := decide (n ≤ c.maxPayload)

/-- `rx_count + inst_len + pay_len = rx_len`, in natural numbers (R156). -/
def lenConsistent (count : Half) (inst_len pay_len : Nat) (len : Half) : Bool :=
  count.toNat + inst_len + pay_len == len.toNat

/-- `rx_count = rx_len + 1`, in natural numbers (R160). -/
def countConsistent (count len : Half) : Bool := count.toNat == len.toNat + 1

/-- `rx_bytes` plus one (R36). -/
def Stats.addRxByte (c : Config) (t : Stats) : Stats := { t with rxBytes := ctrAdd c t.rxBytes 1 }

/-- `rx_objects` plus one (R37). -/
def Stats.addRxObject (c : Config) (t : Stats) : Stats := { t with rxObjects := ctrAdd c t.rxObjects 1 }

/-- `rx_errors` plus one (R38). -/
def Stats.addRxError (c : Config) (t : Stats) : Stats := { t with rxErrors := ctrAdd c t.rxErrors 1 }

/-- One frame of `n` bytes transmitted (R39, R40). -/
def Stats.addTxFrame (c : Config) (n : Nat) (t : Stats) : Stats :=
  { t with txBytes := ctrAdd c t.txBytes n, txObjects := ctrAdd c t.txObjects 1 }

/-- `tx_errors` plus one (R41). -/
def Stats.addTxError (c : Config) (t : Stats) : Stats := { t with txErrors := ctrAdd c t.txErrors 1 }

end Sys2Proof.Machine
end

