-- ==== Sys2Proof/Machine/Ops.lean ====
section
/-! DEFINITION. The named operations over the buffers, the ports and the sequencer: reading and writing a buffer (R60, R61),
the response port (R47), the output trace (R11), refusing before the first `INIT` (R343), and the two abandon actions that
stand for taking an exception (R304, R305). There is no return from one: the next byte is taken in `SYNC` (R307). Also the
freeing of the transaction slot (R264, R341). -/

namespace Sys2Proof.Machine

/-- One byte of a buffer, if something has written it. -/
def Memory.read : Memory → Nat → Option Byte
  | [], _ => none
  | c :: m, a => if c.1 = a then some c.2 else Memory.read m a

/-- A buffer with one byte written, in the canonical form. -/
def Memory.write : Memory → Nat → Byte → Memory
  | [], a, b => [(a, b)]
  | c :: m, a, b =>
    if a < c.1 then (a, b) :: c :: m
    else if a = c.1 then (a, b) :: m
    else c :: Memory.write m a b

/-- The `n` bytes from index `a` on, if every one of them has been written. -/
def Memory.readFrom (m : Memory) : Nat → Nat → Option (List Byte)
  | _, 0 => some []
  | a, n + 1 =>
    match m.read a, m.readFrom (a + 1) n with
    | some b, some bs => some (b :: bs)
    | _, _ => none

/-- A buffer with the bytes of a list written from index `a` on. -/
def Memory.writeFrom : Memory → Nat → List Byte → Memory
  | m, _, [] => m
  | m, a, b :: bs => Memory.writeFrom (m.write a b) (a + 1) bs

/-- Goes on with `k` after an operation that answers a next state; a stop stays a stop. -/
def andThen (r : Result) (k : State → Result) : Result :=
  match r with
  | .next s => k s
  | .fault f => .fault f
  | .refused f => .refused f

/-- Puts a result on the response port (R47). -/
def respond (r : Response) (s : State) : State := { s with response := r }

/-- `emit e`: appends an event to the output trace (R11). -/
def emit (e : Event) (s : State) : State := { s with trace := s.trace ++ [e] }

/-- Every operation other than `INIT` is refused before the first `INIT` (R234, R343, C9). -/
def whenInitialised (s : State) (run : State → Result) : Result :=
  if s.initialised then run s else .refused .beforeInit

/-- `error(cause)` (R304): the counted resynchronisation. Nothing is saved; the writes made before it stay. -/
def countedError (cause : Cause) (s : State) : State :=
  { s with
    stats := s.stats.addRxError s.cfg
    rxState := .sync
    causes := s.causes ++ [cause] }

/-- `resync(cause)` (R305): the uncounted resynchronisation. -/
def resync (cause : Cause) (s : State) : State :=
  { s with rxState := .sync, causes := s.causes ++ [cause] }

/-- Whether a task transmits for the pending transaction (R264). -/
def Task.isTxn (t : Task) : Bool :=
  match t.role with
  | .reply => false
  | .send => false
  | .ackedSend => true
  | .request => true

/-- Whether a task transmits Object Dispatch's reply (R256, R257). -/
def Task.isReply (t : Task) : Bool :=
  match t.role with
  | .reply => true
  | .send => false
  | .ackedSend => false
  | .request => false

/-- The transaction torn down: the slot free, nothing awaited, and nothing more transmitted for it (R264, R341). -/
def Env.freeSlot (e : Env) : Env := { e with slot := none, tasks := e.tasks.filter (fun t => !t.isTxn) }

/-- The code of a cause (R301). -/
def Cause.code : Cause → Nat
  | .resyncVersion => 0
  | .resyncKind => 1
  | .errLenRange => 2
  | .errUnknownObj => 3
  | .errPayloadSize => 4
  | .errLenMismatch => 5
  | .errChecksum => 6
  | .errCount => 7

/-- The 3-bit register encoding of `rx_state` (R22, D44). -/
def RxState.code : RxState → BitVec 3
  | .sync => 0
  | .type => 1
  | .size => 2
  | .objid => 3
  | .instid => 4
  | .data => 5
  | .cs => 6

end Sys2Proof.Machine
end

