-- ==== Sys2Proof/Machine/Crc.lean ====
section
/-! DEFINITION. The checksum engine (R130, R131 of `40_crc.md`) and its three operations on `crc_acc` (R134 to R136). -/

namespace Sys2Proof.Machine

/-- One round of R130: shift left, and fold in the polynomial when bit 7 was set. -/
def crcRound (poly v : Byte) : Byte := if v.msb then (v <<< 1) ^^^ poly else v <<< 1

/-- `crc8_byte(c, b)` (R130): eight rounds on `c ^ b`. -/
def crc8Byte (poly c b : Byte) : Byte := Nat.repeat (crcRound poly) 8 (c ^^^ b)

/-- `crc8_block(c, bytes)` (R131). -/
def crc8Block (poly : Byte) : Byte → List Byte → Byte
  | c, [] => c
  | c, b :: bs => crc8Block poly (crc8Byte poly c b) bs

/-- Writes `crc_acc` and returns it on the response port (R135, R136). -/
def setCrcAcc (v : Byte) (s : State) : State := respond (.crc v) { s with crcAcc := v }

/-- `CRC.INIT` (R134). -/
def execCrcInit (s : State) : Result :=
  whenInitialised s fun s => .next (respond .done { s with crcAcc := s.cfg.crcInit })

/-- `CRC.UPD b` (R135). -/
def execCrcUpd (b : Byte) (s : State) : Result :=
  whenInitialised s fun s => .next (setCrcAcc (crc8Byte s.cfg.crcPoly s.crcAcc b) s)

/-- `CRC.BLK n, bytes` (R136). -/
def execCrcBlk (bytes : List Byte) (s : State) : Result :=
  whenInitialised s fun s => .next (setCrcAcc (crc8Block s.cfg.crcPoly s.crcAcc bytes) s)

end Sys2Proof.Machine
end

