-- ==== Sys2Proof/Machine/Decoder.lean ====
section
/-! DEFINITION. The frame decoder, `RX.BYTE` (R150 to R160 of `41_decoder.md`): one definition for the prologue, one for each
state of the sequencer. -/

namespace Sys2Proof.Machine

/-- The prologue of every `RX.BYTE` (R151). -/
def prologue (s : State) : State :=
  let t := { s with stats := s.stats.addRxByte s.cfg }
  if s.rxState = .sync then t else { t with rx := { s.rx with count := s.rx.count + 1 } }

/-- "fold byte into checksum": `rx_cs <- crc8_byte(rx_cs, b)` (R23). -/
def foldRxCs (b : Byte) (s : State) : State :=
  { s with rx := { s.rx with cs := crc8Byte s.cfg.crcPoly s.rx.cs b } }

/-- State `SYNC` (R152). -/
def stateSync (b : Byte) (s : State) : State :=
  if b = s.cfg.syncVal then
    { s with
      rx := { s.rx with cs := crc8Byte s.cfg.crcPoly s.cfg.crcInit b, count := 1 }
      rxState := .type }
  else s

/-- State `TYPE` (R153): version before kind (R306). -/
def stateType (b : Byte) (s : State) : State :=
  let s := foldRxCs b s
  if !versionOk s.cfg b then resync .resyncVersion s
  else if (kindOf s.cfg b).isNone then resync .resyncKind s
  else { s with rx := { s.rx with type := b, len := 0, fld := 0 }, rxState := .size }

/-- State `SIZE` (R154). -/
def stateSize (b : Byte) (s : State) : State :=
  let s := foldRxCs b s
  let s := { s with rx := { s.rx with len := putByte16 s.rx.len b s.rx.fld, fld := s.rx.fld + 1 } }
  if s.rx.fld = 2 then
    if !lenInRange s.cfg s.rx.len then countedError .errLenRange s
    else { s with rx := { s.rx with fld := 0, objid := 0 }, rxState := .objid }
  else s

/-- The latch of the oracle's answer (R29, R156): `rx_single` is written only when the object is known. -/
def latchLookup (r : Option ObjEntry) (s : State) : State :=
  match r with
  | none => { s with rx := { s.rx with found := false } }
  | some e => { s with rx := { s.rx with found := true, single := e.single } }

/-- The choice of the next state at the end of `OBJID` (R157). -/
def afterObjId (found single : Bool) (paylen : Nat) : RxState :=
  if !found then .cs
  else if single then (if 0 < paylen then .data else .cs)
  else .instid

/-- The three tests at the end of `OBJID`, in their order (R156, R306): the cause of the first that fails. -/
def headerFault (c : Config) (kind : Option Kind) (r : Option ObjEntry) (count len : Half) : Option Cause :=
  if r.isNone && kind != some .objReq then some .errUnknownObj
  else if !payloadFits c (payLen kind r) then some .errPayloadSize
  else if !lenConsistent count (instLen r.isSome (r.any (·.single))) (payLen kind r) len then some .errLenMismatch
  else none

/-- `objid_complete()`: the latch, the tests (R156), then the choice of the next state (R157). -/
def objidComplete (s : State) : State :=
  let r := objLookup s s.rx.objid
  match headerFault s.cfg (rxKind s) r s.rx.count s.rx.len with
  | some cause => countedError cause (latchLookup r s)
  | none =>
    let s := latchLookup r s
    { s with
      rx := { s.rx with paylen := BitVec.ofNat 16 (payLen (rxKind s) r), instid := 0, fld := 0 }
      rxState := afterObjId r.isSome (r.any (·.single)) (payLen (rxKind s) r) }

/-- State `OBJID` (R155). -/
def stateObjId (b : Byte) (s : State) : State :=
  let s := foldRxCs b s
  let s := { s with rx := { s.rx with objid := putByte32 s.rx.objid b s.rx.fld, fld := s.rx.fld + 1 } }
  if s.rx.fld = 4 then objidComplete s else s

/-- State `INSTID` (R158). -/
def stateInstId (b : Byte) (s : State) : State :=
  let s := foldRxCs b s
  let s := { s with rx := { s.rx with instid := putByte16 s.rx.instid b s.rx.fld, fld := s.rx.fld + 1 } }
  if s.rx.fld = 2 then
    { s with
      rx := { s.rx with fld := 0 }
      rxState := if 0 < s.rx.paylen.toNat then .data else .cs }
  else s

/-- State `DATA` (R159). The buffer has the indices below `MAX_PAYLOAD` (R60). -/
def stateData (b : Byte) (s : State) : Result :=
  let s := foldRxCs b s
  if s.cfg.maxPayload ≤ s.rx.fld.toNat then .fault .indexOutsideBuffer
  else
    let s := { s with
      rxBuf := s.rxBuf.write s.rx.fld.toNat b
      rx := { s.rx with fld := s.rx.fld + 1 } }
    .next (if s.rx.fld = s.rx.paylen then { s with rxState := .cs } else s)

/-- The hand-over of a complete, validated frame (R45, R160). -/
def deliverFrame (kind : Kind) (payload : List Byte) (s : State) : State :=
  emit (.deliver
      { kind := kind
        objid := s.rx.objid
        found := s.rx.found
        instid := s.rx.instid
        paylen := s.rx.paylen
        payload := payload })
    { s with stats := s.stats.addRxObject s.cfg, rxState := .sync }

/-- State `CS` (R160): checksum before count (R306); the byte is not folded. -/
def stateCs (b : Byte) (s : State) : Result :=
  if b ≠ s.rx.cs then .next (countedError .errChecksum s)
  else if !countConsistent s.rx.count s.rx.len then .next (countedError .errCount s)
  else
    match rxKind s with
    | none => .fault .noKindRecorded
    | some kind =>
      match s.rxBuf.readFrom 0 s.rx.paylen.toNat with
      | none => .fault .unwrittenByte
      | some payload => .next (deliverFrame kind payload s)

/-- The work of the state the sequencer is in when the operation starts (R150). -/
def rxDispatch (b : Byte) (s : State) : Result :=
  match s.rxState with
  | .sync => .next (stateSync b s)
  | .type => .next (stateType b s)
  | .size => .next (stateSize b s)
  | .objid => .next (stateObjId b s)
  | .instid => .next (stateInstId b s)
  | .data => stateData b s
  | .cs => stateCs b s

/-- One received byte (R150): the prologue, then the state's work. It returns nothing beyond completion (R47). -/
def rxTake (b : Byte) (s : State) : Result := rxDispatch b (prologue (respond .done s))

/-- `RX.BYTE b` (R150). -/
def execRxByte (b : Byte) (s : State) : Result := whenInitialised s (rxTake b)

/-- `rx.bytes` (R115): the bytes one after another. -/
def rxTakeAll : List Byte → State → Result
  | [], s => .next s
  | b :: bs, s => andThen (rxTake b s) (rxTakeAll bs)

end Sys2Proof.Machine
end

