-- ==== Sys2Proof/Machine/Encoder.lean ====
section
/-! DEFINITION. The frame encoder (R200, R206, R207 of `42_encoder.md`) and the five operations `TX.*` (R201 to R205). -/

namespace Sys2Proof.Machine

/-- The declared length (R96, R200, R209): header plus payload, the checksum byte not counted. -/
def declaredLen (inst : Option Half) (payload : List Byte) : Nat :=
  (if inst.isSome then maxHeader else minHeader) + payload.length

/-- The instance-id field: two bytes, or omitted (R98, R200). -/
def instField : Option Half → List Byte
  | none => []
  | some v => le16 v

/-- The bytes of a frame that the checksum covers, offsets 0 to `len - 1` (R91, R100), the length filled in (R200). -/
def frameBody (c : Config) (k : Kind) (objid : ObjId) (inst : Option Half) (payload : List Byte) : List Byte :=
  [c.syncVal, typeByte c k] ++ le16 (BitVec.ofNat 16 (declaredLen inst payload)) ++ le32 objid
    ++ instField inst ++ payload

/-- A whole frame (R90, R91): the covered bytes, then their checksum (R100). -/
def frameBytes (c : Config) (k : Kind) (objid : ObjId) (inst : Option Half) (payload : List Byte) : List Byte :=
  let body := frameBody c k objid inst payload
  body ++ [crc8Block c.crcPoly c.crcInit body]

/-- The chunks of `send_chunks()` (R206): all but the last of exactly `mtu` bytes. The first argument bounds the number
of chunks; the length of the byte list is enough when `mtu` is not zero. -/
def chunksOf : Nat → Nat → List Byte → List (List Byte)
  | 0, _, _ => []
  | _ + 1, _, [] => []
  | fuel + 1, mtu, b :: bs => (b :: bs).take mtu :: chunksOf fuel mtu ((b :: bs).drop mtu)

/-- `send_chunks()` (R206): one `Sink` event a chunk, in increasing frame offset. -/
def sendChunks (mtu : Nat) (frame : List Byte) (s : State) : State :=
  { s with trace := s.trace ++ (chunksOf frame.length mtu frame).map Event.sink }

/-- `encode(kind, objid, has_inst, instid, n, payload)` (R200). It checks nothing but the payload's length (R207, R208). -/
def transmit (k : Kind) (objid : ObjId) (inst : Option Half) (payload : List Byte) (s : State) : Result :=
  if !payloadFits s.cfg payload.length then
    .next (respond .fail { s with stats := s.stats.addTxError s.cfg })
  else if s.mtu = 0 then .fault .zeroChunkSize
  else
    let frame := frameBytes s.cfg k objid inst payload
    let s := sendChunks s.mtu.toNat frame
      { s with txBuf := s.txBuf.writeFrom 0 frame, txLen := BitVec.ofNat 16 frame.length }
    .next (respond .ok { s with stats := s.stats.addTxFrame s.cfg s.txLen.toNat })

/-- `TX.OBJ` (R201). -/
def execTxObj (objid : ObjId) (inst : Option Half) (payload : List Byte) (s : State) : Result :=
  whenInitialised s (transmit .obj objid inst payload)

/-- `TX.OBJ_REQ` (R203). -/
def execTxObjReq (objid : ObjId) (inst : Option Half) (payload : List Byte) (s : State) : Result :=
  whenInitialised s (transmit .objReq objid inst payload)

/-- `TX.OBJ_ACK` (R202). -/
def execTxObjAck (objid : ObjId) (inst : Option Half) (payload : List Byte) (s : State) : Result :=
  whenInitialised s (transmit .objAck objid inst payload)

/-- `TX.ACK` (R204). -/
def execTxAck (objid : ObjId) (inst : Option Half) (payload : List Byte) (s : State) : Result :=
  whenInitialised s (transmit .ack objid inst payload)

/-- `TX.NACK` (R205). -/
def execTxNack (objid : ObjId) (inst : Option Half) (payload : List Byte) (s : State) : Result :=
  whenInitialised s (transmit .nack objid inst payload)

end Sys2Proof.Machine
end

