-- ==== Sys2Proof/Machine/Control.lean ====
section
/-! DEFINITION. The control and statistics operations (R230 to R232 of `43_control_stats.md`), the reset that `INIT` performs
(R340, R342), and the four reserved operation codes (R112, R234). -/

namespace Sys2Proof.Machine

/-- What the reset leaves in the decoder registers (R340): unspecified, so free values (log 6). -/
def unspecifiedRx (draw : Nat) : RxRegs where
  cs := (Config.unspecified draw 0).setWidth 8
  count := (Config.unspecified draw 1).setWidth 16
  fld := (Config.unspecified draw 2).setWidth 16
  type := (Config.unspecified draw 3).setWidth 8
  len := (Config.unspecified draw 4).setWidth 16
  objid := Config.unspecified draw 5
  found := (Config.unspecified draw 6).getLsbD 0
  single := (Config.unspecified draw 7).getLsbD 0
  paylen := (Config.unspecified draw 8).setWidth 16
  instid := (Config.unspecified draw 9).setWidth 16

/-- The reset of R340 and R341 as `INIT` performs it (R342): no byte of either buffer has a value after it, and the
transaction slot is free. The output trace, the ghost log and the rest of the host are not reset (log 15, log 19). -/
def blockReset (s : State) : State :=
  { s with
    rxState := .sync
    rx := unspecifiedRx s.freeDraws
    rxBuf := []
    txBuf := []
    txLen := (Config.unspecified s.freeDraws 10).setWidth 16
    crcAcc := s.cfg.crcInit
    stats := Stats.zero
    freeDraws := s.freeDraws + 1
    env := s.env.freeSlot }

/-- `INIT mtu` (R230): refused with `mtu = 0`, else the reset and then `mtu`. -/
def execInit (mtu : Half) (s : State) : Result :=
  if mtu = 0 then .refused .zeroMtu
  else .next (respond .done { blockReset s with mtu := mtu, initialised := true })

/-- `STAT.GET` (R231): one snapshot, nothing cleared. -/
def execStatGet (s : State) : Result :=
  whenInitialised s fun s => .next (respond (.counters s.stats) s)

/-- `STAT.RESET` (R232). -/
def execStatReset (s : State) : Result :=
  whenInitialised s fun s => .next (respond .done { s with stats := Stats.zero })

/-- A reserved operation code: the command port has no step for it (R112, R234). -/
def refuseReserved (op : BitVec 4) : Result := .refused (.reservedOperation op)

/-- Operation code `0x7` (R112). -/
def execReservedOp7 (_ : State) : Result := refuseReserved 0x7

/-- Operation code `0xD` (R112). -/
def execReservedOpD (_ : State) : Result := refuseReserved 0xD

/-- Operation code `0xE` (R112). -/
def execReservedOpE (_ : State) : Result := refuseReserved 0xE

/-- Operation code `0xF` (R112). -/
def execReservedOpF (_ : State) : Result := refuseReserved 0xF

end Sys2Proof.Machine
end

