-- ==== Sys2Proof/Machine/Frames.lean ====
section
/-! DEFINITION. The frame rows of the opcode table: the block receives a whole frame of that kind, the pseudo-operation
`rx.frame` of R115 of `30_encoding.md` (log 12). The reserved kind codes of R95: the frame is left at its type byte. -/

namespace Sys2Proof.Machine

/-- The bytes that `tx.KIND objid, inst, [payload]` emits (R115, R200): none when the encoder rejects it (R207). -/
def emittedBytes (c : Config) (k : Kind) (objid : ObjId) (inst : Option Half) (payload : List Byte) : List Byte :=
  if payloadFits c payload.length then frameBytes c k objid inst payload else []

/-- `rx.frame KIND, objid, inst, [payload]` (R115). Where `tx.KIND` would answer `FAIL` it is no operation at all, and the spec
gives no response for that; that it still puts completion on the response port is the model's choice (log 12). -/
def rxFrame (k : Kind) (objid : ObjId) (inst : Option Half) (payload : List Byte) (s : State) : Result :=
  rxTakeAll (emittedBytes s.cfg k objid inst payload) (respond .done s)

/-- The start of a frame whose type byte has the right version tag and the kind code `code` (R95 (b), log 13). -/
def kindCodeBytes (c : Config) (code : Byte) : List Byte := [c.syncVal, c.verVal ||| code]

/-- Receives the start of a frame with the kind code `code`. -/
def rxKindCode (code : Byte) (s : State) : Result := rxTakeAll (kindCodeBytes s.cfg code) s

/-- The received bytes an instruction of the receive role stands for (R72, R253): one for `RX.BYTE`, those of a whole frame
for the frame rows. The other instructions are not the receive role's. -/
def receivedBytes (c : Config) : Instr → Option (List Byte)
  | .rxByte b => some [b]
  | .frameObj objid inst payload => some (emittedBytes c .obj objid inst payload)
  | .frameObjReq objid inst payload => some (emittedBytes c .objReq objid inst payload)
  | .frameObjAck objid inst payload => some (emittedBytes c .objAck objid inst payload)
  | .frameAck objid inst payload => some (emittedBytes c .ack objid inst payload)
  | .frameNack objid inst payload => some (emittedBytes c .nack objid inst payload)
  | .frameReservedKind5 => some (kindCodeBytes c 0x05)
  | .frameReservedKind6 => some (kindCodeBytes c 0x06)
  | .frameReservedKind7 => some (kindCodeBytes c 0x07)
  | .init _ => none
  | .crcInit => none
  | .crcUpd _ => none
  | .crcBlk _ => none
  | .statGet => none
  | .statReset => none
  | .reservedOp7 => none
  | .txObj _ _ _ => none
  | .txObjReq _ _ _ => none
  | .txObjAck _ _ _ => none
  | .txAck _ _ _ => none
  | .txNack _ _ _ => none
  | .reservedOpD => none
  | .reservedOpE => none
  | .reservedOpF => none

/-- `frame.OBJ` (R94, R103). -/
def execFrameObj (objid : ObjId) (inst : Option Half) (payload : List Byte) (s : State) : Result :=
  whenInitialised s (rxFrame .obj objid inst payload)

/-- `frame.OBJ_REQ` (R94, R103). -/
def execFrameObjReq (objid : ObjId) (inst : Option Half) (payload : List Byte) (s : State) : Result :=
  whenInitialised s (rxFrame .objReq objid inst payload)

/-- `frame.OBJ_ACK` (R94, R103). -/
def execFrameObjAck (objid : ObjId) (inst : Option Half) (payload : List Byte) (s : State) : Result :=
  whenInitialised s (rxFrame .objAck objid inst payload)

/-- `frame.ACK` (R94, R103). -/
def execFrameAck (objid : ObjId) (inst : Option Half) (payload : List Byte) (s : State) : Result :=
  whenInitialised s (rxFrame .ack objid inst payload)

/-- `frame.NACK` (R94, R103). -/
def execFrameNack (objid : ObjId) (inst : Option Half) (payload : List Byte) (s : State) : Result :=
  whenInitialised s (rxFrame .nack objid inst payload)

/-- Kind code 5 (R95, R153). -/
def execFrameReservedKind5 (s : State) : Result := whenInitialised s (rxKindCode 0x05)

/-- Kind code 6 (R95, R153). -/
def execFrameReservedKind6 (s : State) : Result := whenInitialised s (rxKindCode 0x06)

/-- Kind code 7 (R95, R153). -/
def execFrameReservedKind7 (s : State) : Result := whenInitialised s (rxKindCode 0x07)

end Sys2Proof.Machine
end

