-- ==== Sys2Proof/Machine/Dispatch.lean ====
section
/-! DEFINITION. One arm per constructor of Instr. -/

namespace Sys2Proof.Machine

/-- The meaning of each instruction. -/
def exec (i : Instr) (s : State) : Host.Outcome State Fault Refusal :=
  match i with
  | .init mtu => Sys2Proof.Machine.execInit mtu s
  | .rxByte b => Sys2Proof.Machine.execRxByte b s
  | .crcInit => Sys2Proof.Machine.execCrcInit s
  | .crcUpd b => Sys2Proof.Machine.execCrcUpd b s
  | .crcBlk bytes => Sys2Proof.Machine.execCrcBlk bytes s
  | .statGet => Sys2Proof.Machine.execStatGet s
  | .statReset => Sys2Proof.Machine.execStatReset s
  | .txObj objid inst payload => Sys2Proof.Machine.execTxObj objid inst payload s
  | .txObjReq objid inst payload => Sys2Proof.Machine.execTxObjReq objid inst payload s
  | .txObjAck objid inst payload => Sys2Proof.Machine.execTxObjAck objid inst payload s
  | .txAck objid inst payload => Sys2Proof.Machine.execTxAck objid inst payload s
  | .txNack objid inst payload => Sys2Proof.Machine.execTxNack objid inst payload s
  | .reservedOp7 => Sys2Proof.Machine.execReservedOp7 s
  | .reservedOpD => Sys2Proof.Machine.execReservedOpD s
  | .reservedOpE => Sys2Proof.Machine.execReservedOpE s
  | .reservedOpF => Sys2Proof.Machine.execReservedOpF s
  | .frameObj objid inst payload => Sys2Proof.Machine.execFrameObj objid inst payload s
  | .frameObjReq objid inst payload => Sys2Proof.Machine.execFrameObjReq objid inst payload s
  | .frameObjAck objid inst payload => Sys2Proof.Machine.execFrameObjAck objid inst payload s
  | .frameAck objid inst payload => Sys2Proof.Machine.execFrameAck objid inst payload s
  | .frameNack objid inst payload => Sys2Proof.Machine.execFrameNack objid inst payload s
  | .frameReservedKind5 => Sys2Proof.Machine.execFrameReservedKind5 s
  | .frameReservedKind6 => Sys2Proof.Machine.execFrameReservedKind6 s
  | .frameReservedKind7 => Sys2Proof.Machine.execFrameReservedKind7 s

end Sys2Proof.Machine
end

