-- ==== Sys2Proof/Machine/ObjectModel.lean ====
section
/-! DEFINITION. The host's object model (R250, R251 of `44_host_contract.md`): `pack`, `unpack` and the live instances. What a
call answers is a free choice of the environment (U8), which the host's move carries as data (log 16, log 18). -/

namespace Sys2Proof.Machine

/-- The value of one live instance. -/
def instanceValue (s : State) (objid : ObjId) (instid : Half) : Option (List Byte) :=
  (s.env.store.find? (fun o => o.id == objid && o.instid == instid)).map StoredObject.value

/-- An instance id put into an ascending list without repeats. -/
def insertAscending (i : Half) : List Half → List Half
  | [] => [i]
  | j :: rest =>
    if i < j then i :: j :: rest
    else if i = j then j :: rest
    else j :: insertAscending i rest

/-- The live instances of an object, each once, ascending: what a wildcard stands for (R257, R261, U9, D34, log 18). -/
def liveInstances (s : State) (objid : ObjId) : List Half :=
  ((s.env.store.filter (fun o => o.id == objid)).map StoredObject.instid).foldr insertAscending []

/-- `instance_count(id)` (R251): the number of live instances. -/
def instanceCount (s : State) (objid : ObjId) : Nat := (liveInstances s objid).length

/-- The instances an instance id stands for on the transmit side (R257, R261). -/
def targetInstances (s : State) (objid : ObjId) (instid : Half) : List Half :=
  if instid = s.cfg.allInstances then liveInstances s objid else [instid]

/-- `has_inst` and `instid` of a frame the host sends: present exactly when the object is multi-instance in the host's own
model (R98, R261). -/
def instOperand (s : State) (objid : ObjId) (instid : Half) : Option Half :=
  match objLookup s objid with
  | none => none
  | some e => if e.single then none else some instid

/-- Exactly `n` bytes: the given ones as far as they reach. Every list of `n` bytes is one of these, so what is free in the
bytes given is free here (log 18). -/
def exactly (n : Nat) (bytes : List Byte) : List Byte := (bytes ++ List.replicate n 0).take n

/-- `pack(id, instance)` (R251): exactly `size_of(id)` bytes, or a failure. U8 leaves the result free: the draw decides. A
success gives the instance's current value where the object model holds one of that size, and else bytes of the draw's own
(log 18). -/
def pack (s : State) (draw : Draw) (objid : ObjId) (instid : Half) : Option (List Byte) :=
  match draw with
  | none => none
  | some bytes =>
    match objLookup s objid with
    | none => some bytes
    | some e =>
      match instanceValue s objid instid with
      | none => some (exactly e.size.toNat bytes)
      | some value => if value.length = e.size.toNat then some value else some (exactly e.size.toNat bytes)

/-- The value that `unpack(id, instance, in)` stores, or a failure (R251). U8 leaves the result free: the draw decides. A
success consumes exactly `size_of(id)` bytes: those delivered, and bytes of the draw's own where the object model has
changed since the decode and asks for more, or does not know the id any longer (log 18). -/
def unpackedValue (s : State) (draw : Draw) (objid : ObjId) (payload : List Byte) : Option (List Byte) :=
  match draw with
  | none => none
  | some bytes =>
    match objLookup s objid with
    | none => some bytes
    | some e => some (exactly e.size.toNat (payload ++ bytes))

/-- The store with one instance's value written, the instance created if absent (R251, R255). -/
def writeStore : List StoredObject → ObjId → Half → List Byte → List StoredObject
  | [], objid, instid, value => [⟨objid, instid, value⟩]
  | o :: rest, objid, instid, value =>
    if o.id = objid ∧ o.instid = instid then ⟨objid, instid, value⟩ :: rest
    else o :: writeStore rest objid instid value

/-- The effect of an `unpack(id, instance, in)` that succeeds (R251, R255): the instance holds the value unpacked. -/
def unpack (objid : ObjId) (instid : Half) (value : List Byte) (s : State) : State :=
  { s with env := { s.env with store := writeStore s.env.store objid instid value } }

/-- The host reports to a caller. -/
def report (r : Report) (s : State) : State :=
  { s with env := { s.env with reports := s.env.reports ++ [r] } }

end Sys2Proof.Machine
end

