-- ==== Sys2Proof/Machine/Tasks.lean ====
section
/-! DEFINITION. The host's transmissions in progress: forming the operands of a `TX.*` operation and issuing it are moves of
their own, one operation at a time (R67, R257, R261 of `44_host_contract.md`, log 16). -/

namespace Sys2Proof.Machine

/-- The kind of frame a task transmits for an instance it packs (R257, R261, R262). -/
def TaskRole.kind : TaskRole → Kind
  | .reply => .obj
  | .send => .obj
  | .ackedSend => .objAck
  | .request => .objReq

/-- A task that packs and sends the given instances, one after another. -/
def packTask (role : TaskRole) (objid : ObjId) (instid : Half) (todo : List Half) : Task where
  role := role
  objid := objid
  instid := instid
  todo := todo
  ready := none
  sent := false

/-- A task of one operation that carries no payload (R256, R257, R262). -/
def opTask (role : TaskRole) (kind : Kind) (objid : ObjId) (instid : Half) (inst : Option Half) : Task where
  role := role
  objid := objid
  instid := instid
  todo := []
  ready := some { kind := kind, objid := objid, about := instid, inst := inst, payload := [] }
  sent := false

/-- Whether nothing of a task is left to do. -/
def Task.isDone (t : Task) : Bool := t.todo.isEmpty && t.ready.isNone

/-- A task begins, if it has anything to do. -/
def addTask (t : Task) (s : State) : State :=
  { s with env := { s.env with tasks := if t.isDone then s.env.tasks else s.env.tasks ++ [t] } }

/-- The `k`-th task goes on as `t`, or ends when nothing of it is left. -/
def setTask (k : Nat) (t : Task) (s : State) : State :=
  { s with env := { s.env with tasks := if t.isDone then s.env.tasks.eraseIdx k else s.env.tasks.set k t } }

/-- The `TX.*` operation of a frame kind (R201 to R205). -/
def issueOp (op : TxOp) (s : State) : Result :=
  match op.kind with
  | .obj => execTxObj op.objid op.inst op.payload s
  | .objReq => execTxObjReq op.objid op.inst op.payload s
  | .objAck => execTxObjAck op.objid op.inst op.payload s
  | .ack => execTxAck op.objid op.inst op.payload s
  | .nack => execTxNack op.objid op.inst op.payload s

end Sys2Proof.Machine
end

