-- ==== Sys2Proof/Machine/Transactions.lean ====
section
/-! DEFINITION. The host's sends and its Transaction Manager (R261 to R267 of `44_host_contract.md`). Time is the schedule's:
a timeout is a move (U16), and so are the moment a caller wakes and the moment a blocked caller gets the slot (log 19). -/

namespace Sys2Proof.Machine

/-- The `Deliver` events of a trace, in order. -/
def deliveries (trace : List Event) : List Deliver :=
  trace.filterMap fun e =>
    match e with
    | .deliver d => some d
    | .sink _ => none

/-- The next `Deliver` event Dispatch has not consumed (R254). Nothing consumes events while it is not connected. -/
def nextDeliver (s : State) : Option Deliver :=
  if s.env.attached then (deliveries s.trace)[s.env.dispatched]? else none

/-- Whether an inbound frame about `objid` and `instid` satisfies what is awaited (R255, R259). -/
def satisfies (c : Config) (a : Awaited) (objid : ObjId) (instid : Half) : Bool :=
  a.objid == objid && (a.instid == instid || a.instid == c.allInstances)

/-- Whether a `Deliver` event resolves a transaction that awaits `a`: a matching update or ack (R255, R259, R264), an update
with the wildcard instance id not being one (R255). It does not depend on what `unpack` answers (log 17). -/
def resolves (c : Config) (a : Awaited) (d : Deliver) : Bool :=
  match d.kind with
  | .obj => d.instid != c.allInstances && satisfies c a d.objid d.instid
  | .objAck => d.instid != c.allInstances && satisfies c a d.objid d.instid
  | .ack => satisfies c a d.objid d.instid
  | .objReq => false
  | .nack => false

/-- Takes or frees the transaction slot (R264). -/
def setSlot (slot : Option Slot) (s : State) : State := { s with env := { s.env with slot := slot } }

/-- Object Dispatch has seen a frame: if the pending transaction is resolved by it, its completion signal is given (R255,
R259, R264). -/
def resolveTxn (d : Deliver) (s : State) : State :=
  match s.env.slot with
  | none => s
  | some p => if resolves s.cfg p.awaited d then setSlot (some { p with signal := true }) s else s

/-- The end of a transaction: torn down, then reported (R264). -/
def endTxn (r : Report) (s : State) : State := report r { s with env := s.env.freeSlot }

/-- Whether the pending transaction's frames are all sent, so that its caller waits (R264). -/
def callerWaits (s : State) : Bool := s.env.tasks.all (fun t => !t.isTxn)

/-! Packing and issuing. -/

/-- `pack` failed for instance `i` of the `k`-th task, `t` being what is left of it: nothing is sent for that instance and
the caller is told (D33, R257, R261). An acknowledged send for which nothing is sent at all fails as a whole. -/
def packFailed (k : Nat) (t : Task) (i : Half) (s : State) : State :=
  match t.role with
  | .reply => setTask k t s
  | .send => report (.sendFailed t.objid i) (setTask k t s)
  | .ackedSend =>
    if t.isDone && !t.sent then endTxn (.txnFailed ⟨t.objid, t.instid⟩) s
    else report (.sendFailed t.objid i) (setTask k t s)
  | .request => setTask k t s

/-- The `k`-th task packs its next instance (R257, R261). It forms one operation at a time. -/
def packNext (k : Nat) (draw : Draw) (s : State) : State :=
  match s.env.tasks[k]? with
  | none => s
  | some t =>
    match t.ready, t.todo with
    | none, i :: rest =>
      match pack s draw t.objid i with
      | some payload =>
        setTask k
          { t with
            todo := rest
            ready := some
              { kind := t.role.kind, objid := t.objid, about := i, inst := instOperand s t.objid i, payload := payload } }
          s
      | none => packFailed k { t with todo := rest } i s
    | none, [] => s
    | some _, _ => s

/-- After an operation of a transaction: `FAIL` tears the transaction down and reports failure (R261, R264). -/
def txnIssued (k : Nat) (t : Task) (s : State) : State :=
  if s.response = .fail then endTxn (.txnFailed ⟨t.objid, t.instid⟩) s else setTask k { t with sent := true } s

/-- After an operation of the `k`-th task, `t` being what is left of it: a plain send reports success once the bytes are
handed to the transport and failure on `FAIL` (R261, R263). Of a reply of Object Dispatch that gets `FAIL` (its object is larger
than `MAX_PAYLOAD`) the spec says no more than that nothing is transmitted (R207): that Dispatch reports nothing and goes on
with the next instance is the model's choice (log 18). -/
def issued (k : Nat) (t : Task) (op : TxOp) (s : State) : State :=
  match t.role with
  | .reply => setTask k t s
  | .send =>
    report (if s.response = .fail then .sendFailed op.objid op.about else .sent op.objid op.about) (setTask k t s)
  | .ackedSend => txnIssued k t s
  | .request => txnIssued k t s

/-- The `k`-th task issues the operation it has ready (R257, R261). -/
def issueNext (k : Nat) (s : State) : Result :=
  match s.env.tasks[k]? with
  | none => .next s
  | some t =>
    match t.ready with
    | none => .next s
    | some op => andThen (issueOp op s) fun u => .next (issued k { t with ready := none } op u)

/-! Sends and transactions. -/

/-- send-object without ack (R261, R263). A wildcard send of an object without a live instance transmits nothing and
reports nothing: the spec is silent there, and this is the model's choice (log 18). -/
def sendObject (objid : ObjId) (instid : Half) (s : State) : State :=
  addTask (packTask .send objid instid (targetInstances s objid instid)) s

/-- Starts a transaction in the free slot (R264): record what is awaited, then transmit. An acknowledged send of an object
without a live instance has nothing to issue and fails (log 18). -/
def beginTxn (r : TxnRequest) (s : State) : State :=
  let a : Awaited := ⟨r.objid, r.instid⟩
  let taken := setSlot (some ⟨a, false⟩) s
  match r.kind with
  | .request => addTask (opTask .request .objReq r.objid r.instid (instOperand s r.objid r.instid)) taken
  | .ackedSend =>
    match targetInstances s r.objid r.instid with
    | [] => report (.txnFailed a) s
    | i :: rest => addTask (packTask .ackedSend r.objid r.instid (i :: rest)) taken

/-- A caller starts a transaction, or blocks while one is pending (R264, R265). -/
def startTxn (r : TxnRequest) (s : State) : State :=
  match s.env.slot with
  | none => beginTxn r s
  | some _ => { s with env := { s.env with blocked := s.env.blocked ++ [r] } }

/-- A blocked caller tries again: it gets the slot if it is free, else it stays blocked (R265). -/
def resumeTxn (k : Nat) (s : State) : State :=
  match s.env.slot, s.env.blocked[k]? with
  | none, some r => beginTxn r { s with env := { s.env with blocked := s.env.blocked.eraseIdx k } }
  | none, none => s
  | some _, _ => s

/-- The waiting caller takes the completion signal: the slot is released and success reported (R264). -/
def wakeTxn (s : State) : State :=
  match s.env.slot with
  | none => s
  | some p => if p.signal && callerWaits s then endTxn (.resolved p.awaited) s else s

/-- The timeout of the waiting caller: the slot is free at once and failure reported, nothing is sent (R266, R267). It
passes only while no resolving frame has been delivered (U16): neither one Dispatch has seen nor one it has yet to take. -/
def timeoutTxn (s : State) : State :=
  match s.env.slot with
  | none => s
  | some p =>
    if p.signal || !callerWaits s || (nextDeliver s).any (resolves s.cfg p.awaited) then s
    else endTxn (.timedOut p.awaited) s

end Sys2Proof.Machine
end

