-- ==== Sys2Proof/Machine/ObjectDispatch.lean ====
section
/-! DEFINITION. The host's Object Dispatch (R254 to R260 of `44_host_contract.md`), and the moves of the host. What Dispatch
transmits is a task: later `TX.*` operations of the host (R69, D25). -/

namespace Sys2Proof.Machine

/-- An inbound update: the value is stored, if `unpack` succeeded, and the transaction it satisfies is resolved (R255). -/
def takeUpdate (d : Deliver) (value : Option (List Byte)) (s : State) : State :=
  match value with
  | none => resolveTxn d s
  | some v => resolveTxn d (unpack d.objid d.instid v s)

/-- `kind = OBJ` (R255): a wildcard is rejected, else unpack and resolve; an unpack failure is swallowed (R270). -/
def dispatchObj (d : Deliver) (draw : Draw) (s : State) : State :=
  if d.instid = s.cfg.allInstances then report (.wildcardUpdate d.objid) s
  else takeUpdate d (unpackedValue s draw d.objid d.payload) s

/-- `kind = OBJ_ACK` (R256): as R255, and an ack on a successful unpack. -/
def dispatchObjAck (d : Deliver) (draw : Draw) (s : State) : State :=
  if d.instid = s.cfg.allInstances then report (.wildcardUpdate d.objid) s
  else
    let value := unpackedValue s draw d.objid d.payload
    let t := takeUpdate d value s
    if value.isSome then addTask (opTask .reply .ack d.objid d.instid (instOperand t d.objid d.instid)) t else t

/-- `kind = OBJ_REQ` (R257): a nack for an unknown object, else its value, expanded to every live instance for the
wildcard. -/
def dispatchObjReq (d : Deliver) (s : State) : State :=
  if d.found then addTask (packTask .reply d.objid d.instid (targetInstances s d.objid d.instid)) s
  else addTask (opTask .reply .nack d.objid d.instid none) s

/-- `kind = ACK` (R259). -/
def dispatchAck (d : Deliver) (s : State) : State := resolveTxn d s

/-- `kind = NACK` (R258): no action. -/
def dispatchNack (s : State) : State := s

/-- One `Deliver` event (R254). -/
def dispatchDeliver (d : Deliver) (draw : Draw) (s : State) : State :=
  match d.kind with
  | .obj => dispatchObj d draw s
  | .objAck => dispatchObjAck d draw s
  | .objReq => dispatchObjReq d s
  | .nack => dispatchNack s
  | .ack => dispatchAck d s

/-- Whether Object Dispatch is still transmitting its reply to the event it took last. -/
def replying (s : State) : Bool := s.env.tasks.any Task.isReply

/-- Object Dispatch takes the next `Deliver` event, if there is one: one at a time, in order (R254). -/
def dispatchNext (draw : Draw) (s : State) : State :=
  if replying s then s
  else
    match nextDeliver s with
    | none => s
    | some d => dispatchDeliver d draw { s with env := { s.env with dispatched := s.env.dispatched + 1 } }

/-- Object Dispatch is connected to the `Deliver` port: it consumes the events from now on (log 26). -/
def connect (s : State) : State :=
  if s.env.attached then s
  else { s with env := { s.env with attached := true, dispatched := (deliveries s.trace).length } }

/-- The object model is replaced (R250, R272). -/
def setObjectModel (objects : List ObjEntry) (store : List StoredObject) (s : State) : State :=
  { s with env := { s.env with objects := objects, store := store } }

/-- A move of the host (R272). The spec gives a caller of the host no handle and no effect before the first `INIT` (R343). That
such a call runs here, and only the `TX.*` operation issued for it is refused, is the model's choice (log 27). -/
def hostMove (m : Move) (s : State) : Result :=
  match m with
  | .objectModel objects store => .next (setObjectModel objects store s)
  | .connect => .next (connect s)
  | .dispatch draw => .next (dispatchNext draw s)
  | .send objid instid => .next (sendObject objid instid s)
  | .startTxn r => .next (startTxn r s)
  | .resume k => .next (resumeTxn k s)
  | .pack k fails => .next (packNext k fails s)
  | .issue k => issueNext k s
  | .wake => .next (wakeTxn s)
  | .timeout => .next (timeoutTxn s)

end Sys2Proof.Machine
end

