-- ==== Sys2Proof/Machine/Fetch.lean ====
section
/-! DEFINITION. Taking the next pending input. The block fetches nothing itself (R21, R71): its operations are commands among
the inputs (log 2). Object Dispatch runs before the next `RX.BYTE` (R254), so the receive role waits for it (log 26). -/

namespace Sys2Proof.Machine

/-- Whether the receive role has to wait: a `Deliver` event is not consumed yet, or its reply is not sent yet (R69, R254). -/
def receiveHeld (s : State) : Bool := s.env.attached && ((nextDeliver s).isSome || replying s)

/-- Whether an input is a command of the receive role (R72). -/
def Input.isReceive (c : Config) : Input → Bool
  | .move _ => false
  | .command word =>
    match decode word with
    | .error _ => false
    | .ok i => (receivedBytes c i).isSome

/-- Whether an input has to wait for Object Dispatch (R254). -/
def inputHeld (s : State) (j : Input) : Bool := receiveHeld s && j.isReceive s.cfg

/-- The first input that need not wait, and the others in their order (R67). -/
def takeInput (s : State) : List Input → Option (Input × List Input)
  | [] => none
  | j :: rest =>
    if inputHeld s j then
      match takeInput s rest with
      | none => none
      | some (taken, others) => some (taken, j :: others)
    else some (j, rest)

/-- One `RX.BYTE` command for each byte. -/
def rxCommands (bytes : List Byte) : List Input := bytes.map (fun b => .command (encode (.rxByte b)))

/-- The bytes of a frame row that are received one operation at a time (R115): with Object Dispatch connected it must run
between two of them if one delivers, so the row is not run as one. Where `tx.KIND` would answer `FAIL` there are none, and that
the response port then stays as it is, is the model's choice (log 12). -/
def splitFrame (s : State) (i : Instr) : Option (List Byte) :=
  if s.env.attached && s.initialised && i.op != .rxByte then receivedBytes s.cfg i else none

/-- Runs a decoded instruction: a frame row that is to be split becomes its `RX.BYTE` commands, next in line. -/
def runInstr (i : Instr) (s : State) : Result :=
  match splitFrame s i with
  | some bytes => .next { s with inputs := rxCommands bytes ++ s.inputs }
  | none => exec i s

/-- Decodes a command word and runs its instruction; bytes that are no command are refused by name (U5). -/
def runCommand (word : List Byte) (s : State) : Result :=
  match decode word with
  | .error e => .refused (.badCommand e)
  | .ok i => runInstr i s

/-- Runs one input. -/
def runInput (j : Input) (s : State) : Result :=
  match j with
  | .command word => runCommand word s
  | .move m => hostMove m s

/-- The bytes of a table word's instruction, its further bits zero. -/
def commandOfTableWord (nbits w : Nat) : List Byte :=
  match decodeTableBytes nbits w with
  | .error _ => tableBytes nbits w
  | .ok (i, _) => (tableBytes nbits w ++ List.replicate 65545 0).take (encode i).length

end Sys2Proof.Machine
end

