-- ==== Sys2Proof/Machine/Step.lean ====
section
/-! DEFINITION. One step: the first pending input that need not wait is taken, whole (R12, R67). With none the block waits
(R340). -/

namespace Sys2Proof.Machine

/-- One step of the machine. -/
def step (s : State) : Host.Outcome State Fault Refusal :=
  match takeInput s s.inputs with
  | none => .next s
  | some (j, rest) => runInput j { s with inputs := rest }

/-- `s` with a table word's instruction as the next input, on a block alone whose connection is open: before the first
`INIT` the command port of R343 has no user, and a connected Object Dispatch may hold the receive role, so the flag of R234
and that connection are part of what the next step needs (log 3). -/
def State.withFetchWord (s : State) (nbits w : Nat) : State :=
  { s with
    inputs := .command (commandOfTableWord nbits w) :: s.inputs
    initialised := true
    env := { s.env with attached := false } }

end Sys2Proof.Machine
end

