-- ==== Sys2Proof/Safety.lean ====
section
/-! DEFINITION. What counts as a sound state and a safe outcome: the bounds and the written-before-read discipline that the
spec derives for every state a run reaches (R49, Table V of R42, R60, R61, R185, R186). -/

namespace Sys2Proof.Machine

/-- An outcome that is no fault. -/
def NoFault (r : Result) : Prop := ∀ f, r ≠ .fault f

/-- Each counter is a value of `CTR_W` bits (R235). -/
def Stats.bounded (c : Config) (t : Stats) : Prop :=
  t.rxBytes < 2 ^ c.ctrW ∧ t.rxObjects < 2 ^ c.ctrW ∧ t.rxErrors < 2 ^ c.ctrW
    ∧ t.txBytes < 2 ^ c.ctrW ∧ t.txObjects < 2 ^ c.ctrW ∧ t.txErrors < 2 ^ c.ctrW

/-- A buffer in its canonical form with no index at or above its size (R60, R61). -/
def Memory.within (m : Memory) (size : Nat) : Prop := m.wf ∧ ∀ c ∈ m, c.1 < size

/-- The first `n` bytes of a buffer have been written. -/
def Memory.writtenTo (m : Memory) (n : Nat) : Prop := (m.readFrom 0 n).isSome

/-- The recorded type byte has the right version tag and one of the five kinds (R26). -/
def typeRecorded (s : State) : Prop := versionOk s.cfg s.rx.type = true ∧ (rxKind s).isSome

/-- What the tests of R156 leave true of a frame past its object id: the payload fits, the declared length is the header
plus the payload, the kinds without payload have none, only a request is about an unknown object, and a frame without an
instance-id field has instance id 0 (R161). -/
def headerAccepted (s : State) : Prop :=
  typeRecorded s
    ∧ s.rx.paylen.toNat ≤ s.cfg.maxPayload
    ∧ minHeader + instLen s.rx.found s.rx.single + s.rx.paylen.toNat = s.rx.len.toNat
    ∧ (rxKind s ∈ [some Kind.objReq, some .ack, some .nack] → s.rx.paylen = 0)
    ∧ (s.rx.found = false → rxKind s = some .objReq)
    ∧ (instLen s.rx.found s.rx.single = 0 → s.rx.instid = 0)

/-- What the decoder registers satisfy in each state of the sequencer (Table V of R42, R185, R186). -/
def decoderSound (s : State) : Prop :=
  match s.rxState with
  | .sync => True
  | .type => s.rx.count = 1
  | .size =>
    typeRecorded s ∧ s.rx.fld.toNat < 2 ∧ s.rx.count.toNat = 2 + s.rx.fld.toNat
      ∧ s.rx.len.toNat < 2 ^ (8 * s.rx.fld.toNat)
  | .objid =>
    typeRecorded s ∧ s.rx.fld.toNat < 4 ∧ s.rx.count.toNat = 4 + s.rx.fld.toNat
      ∧ s.rx.objid.toNat < 2 ^ (8 * s.rx.fld.toNat) ∧ lenInRange s.cfg s.rx.len = true
  | .instid =>
    headerAccepted s ∧ s.rx.found = true ∧ s.rx.single = false ∧ s.rx.fld.toNat < 2
      ∧ s.rx.count.toNat = 8 + s.rx.fld.toNat ∧ s.rx.instid.toNat < 2 ^ (8 * s.rx.fld.toNat)
  | .data =>
    headerAccepted s ∧ s.rx.found = true ∧ s.rx.fld.toNat < s.rx.paylen.toNat
      ∧ s.rx.count.toNat = 8 + instLen s.rx.found s.rx.single + s.rx.fld.toNat
      ∧ s.rxBuf.writtenTo s.rx.fld.toNat
  | .cs => headerAccepted s ∧ s.rx.count = s.rx.len ∧ s.rxBuf.writtenTo s.rx.paylen.toNat

/-- The invariant of the machine: legal parameters (R8), a legal chunk size (R34), counters of `CTR_W` bits (R235), both
buffers inside their sizes (R60, R61), and the decoder's registers as its state needs them (R49). -/
def Sound (s : State) : Prop :=
  s.cfg.wf = true ∧ s.mtu ≠ 0 ∧ s.stats.bounded s.cfg
    ∧ s.rxBuf.within s.cfg.maxPayload ∧ s.txBuf.within s.cfg.maxFrame ∧ decoderSound s

/-- The invariant of the host around the block: one transaction at a time, and something transmitted for it only while it
holds the slot (R264, R265); one reply at a time; and, with Object Dispatch connected, every `Deliver` event consumed but for
at most the last one, which waits for no reply (R254). -/
def HostSound (s : State) : Prop :=
  (s.env.tasks.filter Task.isTxn).length ≤ 1
    ∧ (s.env.slot = none → ∀ t ∈ s.env.tasks, t.isTxn = false)
    ∧ (s.env.tasks.filter Task.isReply).length ≤ 1
    ∧ (s.env.attached = true →
        (deliveries s.trace).length = s.env.dispatched
          ∨ ((deliveries s.trace).length = s.env.dispatched + 1 ∧ replying s = false))

/-- Two states in which every register that Table V of R42 calls valid in the sequencer's state holds the same value. -/
def validRegsAgree (s t : State) : Prop :=
  match s.rxState with
  | .sync => True
  | .type => s.rx.cs = t.rx.cs ∧ s.rx.count = t.rx.count
  | .size =>
    s.rx.cs = t.rx.cs ∧ s.rx.count = t.rx.count ∧ s.rx.fld = t.rx.fld ∧ s.rx.type = t.rx.type ∧ s.rx.len = t.rx.len
  | .objid =>
    s.rx.cs = t.rx.cs ∧ s.rx.count = t.rx.count ∧ s.rx.fld = t.rx.fld ∧ s.rx.type = t.rx.type ∧ s.rx.len = t.rx.len
      ∧ s.rx.objid = t.rx.objid
  | .instid =>
    { s.rx with single := t.rx.single } = t.rx
  | .data =>
    { s.rx with single := t.rx.single } = t.rx ∧ ∀ a < s.rx.fld.toNat, s.rxBuf.read a = t.rxBuf.read a
  | .cs =>
    { s.rx with single := t.rx.single, fld := t.rx.fld } = t.rx
      ∧ ∀ a < s.rx.paylen.toNat, s.rxBuf.read a = t.rxBuf.read a

/-- Two states that differ only in values the spec leaves unspecified: registers not valid in the sequencer's state, stale
buffer bytes, the transmit buffer, and the counter of free-value draws (R42, R48, R49). -/
def sameVisible (s t : State) : Prop :=
  s.cfg = t.cfg ∧ s.rxState = t.rxState ∧ s.mtu = t.mtu ∧ s.initialised = t.initialised ∧ s.crcAcc = t.crcAcc
    ∧ s.stats = t.stats ∧ s.response = t.response ∧ s.trace = t.trace ∧ s.causes = t.causes ∧ s.inputs = t.inputs
    ∧ s.env = t.env ∧ validRegsAgree s t

/-- Two outcomes of the same sort: next states in the relation, or the same stop. -/
def Related (R : State → State → Prop) : Result → Result → Prop
  | .next s, .next t => R s t
  | .fault f, .fault g => f = g
  | .refused f, .refused g => f = g
  | .next _, .fault _ => False
  | .next _, .refused _ => False
  | .fault _, .next _ => False
  | .fault _, .refused _ => False
  | .refused _, .next _ => False
  | .refused _, .fault _ => False

end Sys2Proof.Machine
end

