-- ==== Sys2Proof/Certificates/Slice0/Obligations.lean ====
section
/-! DEFINITION. The statements about the model that are to be proved. Each says which rule of `spec/` it formalises. -/

namespace Sys2Proof.Claims

open Sys2Proof.Machine

/-- The five `TX.*` operations, by kind (R201 to R205). -/
def txInstr : Kind → ObjId → Option Half → List Byte → Instr
  | .obj => .txObj
  | .objReq => .txObjReq
  | .objAck => .txObjAck
  | .ack => .txAck
  | .nack => .txNack

/-- The five frame rows, by kind (R94). -/
def frameInstr : Kind → ObjId → Option Half → List Byte → Instr
  | .obj => .frameObj
  | .objReq => .frameObjReq
  | .objAck => .frameObjAck
  | .ack => .frameAck
  | .nack => .frameNack

/-- Whether the payload is `n` bytes of the object (`OBJ`, `OBJ_ACK`) or absent (R99). -/
def carriesPayload : Kind → Bool
  | .obj => true
  | .objAck => true
  | .objReq => false
  | .ack => false
  | .nack => false

/-- An outcome with `f` applied to its next state. -/
def mapNext (f : State → State) : Result → Result
  | .next s => .next (f s)
  | .fault r => .fault r
  | .refused r => .refused r

/-- A byte counted by the prologue and nothing else, in a state other than `SYNC` (R151, R36). -/
def byteCounted (s : State) : State :=
  { s with
    response := .done
    stats := { s.stats with rxBytes := ctrAdd s.cfg s.stats.rxBytes 1 }
    rx := { s.rx with count := s.rx.count + 1 } }

/-- A byte counted and folded into the running checksum, in a state other than `SYNC` and `CS` (R151, R23). -/
def byteTaken (b : Byte) (s : State) : State :=
  { byteCounted s with
    rx := { s.rx with count := s.rx.count + 1, cs := crc8Byte s.cfg.crcPoly s.rx.cs b } }

/-- The states the sequencer may be in after a byte taken in a state (R162). -/
def successors : RxState → List RxState
  | .sync => [.sync, .type]
  | .type => [.sync, .size]
  | .size => [.size, .sync, .objid]
  | .objid => [.objid, .sync, .cs, .data, .instid]
  | .instid => [.instid, .data, .cs]
  | .data => [.data, .cs]
  | .cs => [.sync]

/-- Whether a cause adds one to `rx_errors` (R301, column "counted"). -/
def isCounted : Cause → Bool
  | .resyncVersion => false
  | .resyncKind => false
  | .errLenRange => true
  | .errUnknownObj => true
  | .errPayloadSize => true
  | .errLenMismatch => true
  | .errChecksum => true
  | .errCount => true

/-- The `Deliver` event of a frame about a known object, or about an unknown one (R45, R161). -/
def delivered (k : Kind) (objid : ObjId) (found : Bool) (inst : Option Half) (payload : List Byte) : Event :=
  .deliver
    { kind := k
      objid := objid
      found := found
      instid := inst.getD 0
      paylen := BitVec.ofNat 16 payload.length
      payload := payload }

/-- The counters after a frame of `n` bytes that was delivered (R36, R37). -/
def countedFrame (c : Config) (n : Nat) (t : Stats) : Stats :=
  { t with rxBytes := ctrAdd c t.rxBytes n, rxObjects := ctrAdd c t.rxObjects 1 }

/-- The counters after a frame of `n` bytes that raised one counted error (R36, R38). -/
def countedBadFrame (c : Config) (n : Nat) (t : Stats) : Stats :=
  { t with rxBytes := ctrAdd c t.rxBytes n, rxErrors := ctrAdd c t.rxErrors 1 }

/-- The operands agree with the receiver's object model (R103): a known object with its cardinality and, where the kind
carries a payload, its size. -/
def agreesWithModel (c : Config) (e : ObjEntry) (k : Kind) (inst : Option Half) (payload : List Byte) : Prop :=
  inst.isSome = !e.single ∧ payload.length ≤ c.maxPayload
    ∧ payload.length = if carriesPayload k then e.size.toNat else 0

/-- The operations of the command port other than `INIT` and the reserved codes (R110, R111). -/
def guardedOps : List Op :=
  [.rxByte, .crcInit, .crcUpd, .crcBlk, .statGet, .statReset, .txObj, .txObjReq, .txObjAck, .txAck, .txNack]

/-- The eight frame rows of the opcode table. -/
def frameOps : List Op :=
  [.frameObj, .frameObjReq, .frameObjAck, .frameAck, .frameNack, .frameReservedKind5, .frameReservedKind6,
    .frameReservedKind7]

/-- Whether an input is a command of the receive role: `RX.BYTE`, or a frame row (R72; log 12). -/
def isReceive (j : Input) : Prop :=
  ∃ word i, j = .command word ∧ decode word = .ok i ∧ i.op ∈ Op.rxByte :: frameOps

/-- Whether Object Dispatch is connected and has a `Deliver` event to consume or a reply to send (R69, R254). -/
def dispatchBusy (s : State) : Prop :=
  s.env.attached = true
    ∧ ((deliveries s.trace)[s.env.dispatched]? ≠ none ∨ ∃ t ∈ s.env.tasks, t.role = .reply)

/-- `j` is the input the next step takes and `rest` the inputs that stay: every input before it is a command of the receive
role that waits for Object Dispatch, and `j` is not (R67, R254). -/
def takesNext (s : State) (j : Input) (rest : List Input) : Prop :=
  ∃ held others, s.inputs = held ++ j :: others ∧ rest = held ++ others
    ∧ (∀ h ∈ held, dispatchBusy s ∧ isReceive h) ∧ ¬ (dispatchBusy s ∧ isReceive j)

/-- Object Dispatch can take the `Deliver` event `d`: it is connected, `d` is the next event it has not consumed, and no
reply is still to be sent (R254). -/
def canDispatch (s : State) (d : Deliver) : Prop :=
  s.env.attached = true ∧ (deliveries s.trace)[s.env.dispatched]? = some d ∧ ∀ t ∈ s.env.tasks, t.role ≠ .reply

/-- The host's part after Object Dispatch has consumed one event. -/
def consumed (s : State) : Env := { s.env with dispatched := s.env.dispatched + 1 }

/-- Whether a transaction awaits this object id, and this instance id or any (R255, R259). -/
def awaits (c : Config) (a : Awaited) (d : Deliver) : Prop :=
  a.objid = d.objid ∧ (a.instid = d.instid ∨ a.instid = c.allInstances)

/-- Whether the caller of the pending transaction waits: nothing is left to transmit for it (R264). -/
def txnSent (s : State) : Prop := ∀ t ∈ s.env.tasks, t.role ≠ .ackedSend ∧ t.role ≠ .request

/-- The host's moves one after another. -/
def playMoves : List Move → State → Result
  | [], s => .next s
  | m :: ms, s => andThen (hostMove m s) (playMoves ms)

/-- Everything of a state but what `RX.BYTE` writes is the same (R150, R20). -/
def sameOutsideDecoder (s t : State) : Prop :=
  t.cfg = s.cfg ∧ t.txBuf = s.txBuf ∧ t.txLen = s.txLen ∧ t.mtu = s.mtu ∧ t.initialised = s.initialised
    ∧ t.crcAcc = s.crcAcc ∧ t.stats.txBytes = s.stats.txBytes ∧ t.stats.txObjects = s.stats.txObjects
    ∧ t.stats.txErrors = s.stats.txErrors ∧ t.freeDraws = s.freeDraws ∧ t.inputs = s.inputs ∧ t.env = s.env

/-- The decoder's half of a state is the same. -/
def sameDecoder (s t : State) : Prop :=
  t.rxState = s.rxState ∧ t.rx = s.rx ∧ t.rxBuf = s.rxBuf ∧ t.stats.rxBytes = s.stats.rxBytes
    ∧ t.stats.rxObjects = s.stats.rxObjects ∧ t.stats.rxErrors = s.stats.rxErrors ∧ t.causes = s.causes

end Sys2Proof.Claims

open Sys2Proof Sys2Proof.Machine Sys2Proof.Claims

/-! Encoding and stepping. -/

/-- The decoder reads words written out from the opcode table and R111, R113 (packing: the model's choice, log 1). -/
def Obligations.DecoderReadsWrittenOutWords : Prop :=
  decode [0x00, 0x40, 0x00] = .ok (.init 64)
    ∧ decode [0x01, 0x3C] = .ok (.rxByte 0x3C)
    ∧ decode [0x04, 0x02, 0x00, 0x31, 0x32] = .ok (.crcBlk [0x31, 0x32])
    ∧ decode [0x05] = .ok .statGet
    ∧ decode [0x0A, 0x01, 0x10, 0x00, 0x00, 0x00, 0x00, 0x00, 0x02, 0x00, 0xAA, 0xBB]
        = .ok (.txObjAck 0x1001 none [0xAA, 0xBB])
    ∧ decode [0x0C, 0xAD, 0xDE, 0x00, 0x00, 0x01, 0x34, 0x12, 0x00, 0x00] = .ok (.txNack 0xDEAD (some 0x1234) [])
    ∧ decode [0x0F] = .ok .reservedOpF
    ∧ decode [0x21, 0x02, 0x20, 0x00, 0x00, 0x01, 0xFF, 0xFF, 0x00, 0x00] = .ok (.frameObjReq 0x2002 (some 0xFFFF) [])
    ∧ decode [0x27] = .ok .frameReservedKind7

/-- Decoding the words of any well-formed instruction gives it back, whatever its operands (packing: log 1). -/
def Obligations.DecodeOfEncodeIsTheInstruction : Prop :=
  ∀ i : Instr, i.wf = true → decode (encode i) = .ok i

/-- Whatever decodes is well formed and as long as its own encoding: no operand byte is dropped or invented (log 1). -/
def Obligations.DecodedWordsAreWellFormed : Prop :=
  ∀ (word : List Byte) (i : Instr), decode word = .ok i → i.wf = true ∧ word.length = (encode i).length

/-- A word is the word of one row only, and the words of no row are refused (log 1). -/
def Obligations.EveryFirstByteHasOneRow : Prop :=
  (∀ o o' : Op, o.word = o'.word → o = o')
    ∧ ∀ (b : Byte) (rest : List Byte), (∀ o : Op, o.word ≠ b) → decode (b :: rest) = .error (.noSuchWord b)

/-- A step takes the first input that need not wait for Object Dispatch (R67, R254; the list of inputs and the connection of
Dispatch are the model's, log 2 and log 26). It runs the decoded instruction of a command word, refuses bytes that are no
command (U5), plays a host move, and waits where there is nothing to take (R340). With Dispatch connected a frame row is not
run as one but byte by byte (R115): it becomes its `RX.BYTE` commands, next in line, none for an oversize payload (the model's
reading, log 12 and log 13). -/
def Obligations.StepRunsTheNextInput : Prop :=
  ∀ s : State,
    (∀ (word : List Byte) (rest : List Input) (i : Instr), takesNext s (.command word) rest → decode word = .ok i →
      (s.env.attached = false ∨ s.initialised = false ∨ i.op ∉ frameOps) → step s = exec i { s with inputs := rest })
    ∧ (∀ (word : List Byte) (rest : List Input) (k : Kind) (objid : ObjId) (inst : Option Half) (payload : List Byte),
      takesNext s (.command word) rest → decode word = .ok (frameInstr k objid inst payload) →
      s.env.attached = true → s.initialised = true →
      step s = .next { s with
        inputs := rxCommands
          (if payload.length ≤ s.cfg.maxPayload then frameBytes s.cfg k objid inst payload else []) ++ rest })
    ∧ (∀ (word : List Byte) (rest : List Input) (i : Instr) (code : Byte),
      takesNext s (.command word) rest → decode word = .ok i →
      (i.op, code) ∈ [(Op.frameReservedKind5, 5), (.frameReservedKind6, 6), (.frameReservedKind7, 7)] →
      s.env.attached = true → s.initialised = true →
      step s = .next { s with inputs := rxCommands [s.cfg.syncVal, s.cfg.verVal ||| code] ++ rest })
    ∧ (∀ (word : List Byte) (rest : List Input) (e : DecodeError),
      takesNext s (.command word) rest → decode word = .error e → step s = .refused (.badCommand e))
    ∧ (∀ (m : Move) (rest : List Input), takesNext s (.move m) rest → step s = hostMove m { s with inputs := rest })
    ∧ ((∀ j ∈ s.inputs, dispatchBusy s ∧ isReceive j) → step s = .next s)

/-- A table word placed by `withFetchWord` is what the very next step runs, on the block alone with its connection open (the
model's own convention, log 3). -/
def Obligations.FetchWordRunsTheTableWord : Prop :=
  ∀ (s : State) (nbits w : Nat) (i : Instr), decodeTableWord nbits w = some i →
    step (s.withFetchWord nbits w) = exec i { s with initialised := true, env := { s.env with attached := false } }

/-! The checksum engine. -/

/-- R132: one block or two, the same checksum. -/
def Obligations.ChecksumIsIncremental : Prop :=
  ∀ (poly c : Byte) (xs ys : List Byte), crc8Block poly c (xs ++ ys) = crc8Block poly (crc8Block poly c xs) ys

/-- R133 (a), (b), (d): `crc8_byte(c, b)` depends on `c ^ b` only, is linear over exclusive-or, and is zero on `c = b`. -/
def Obligations.ChecksumByteIsLinear : Prop :=
  ∀ poly c b x y : Byte,
    crc8Byte poly c b = crc8Byte poly 0 (c ^^^ b)
      ∧ crc8Byte poly 0 (x ^^^ y) = crc8Byte poly 0 x ^^^ crc8Byte poly 0 y
      ∧ crc8Byte poly c c = 0

/-- R133 (c): with an odd polynomial a fold is injective in the byte and in the running value. -/
def Obligations.ChecksumByteIsInjective : Prop :=
  ∀ poly : Byte, poly.getLsbD 0 = true → ∀ c c' b b' : Byte,
    (crc8Byte poly c b = crc8Byte poly c b' → b = b') ∧ (crc8Byte poly c b = crc8Byte poly c' b → c = c')

/-- R133 (c), R188: with an odd polynomial changing exactly one byte changes the checksum. -/
def Obligations.SingleByteCorruptionIsDetected : Prop :=
  ∀ (poly c a b : Byte) (xs ys : List Byte), poly.getLsbD 0 = true → a ≠ b →
    crc8Block poly c (xs ++ a :: ys) ≠ crc8Block poly c (xs ++ b :: ys)

/-- R134: `CRC.INIT`, and nothing else changes. -/
def Obligations.CrcInitLoadsTheInitialValue : Prop :=
  ∀ s : State, s.initialised = true →
    exec .crcInit s = .next { s with crcAcc := s.cfg.crcInit, response := .done }

/-- R135: `CRC.UPD b`, and nothing else changes. -/
def Obligations.CrcUpdFoldsOneByte : Prop :=
  ∀ (s : State) (b : Byte), s.initialised = true →
    exec (.crcUpd b) s
      = .next { s with
          crcAcc := crc8Byte s.cfg.crcPoly s.crcAcc b
          response := .crc (crc8Byte s.cfg.crcPoly s.crcAcc b) }

/-- R136: `CRC.BLK`, and nothing else changes. -/
def Obligations.CrcBlkFoldsTheBytes : Prop :=
  ∀ (s : State) (bytes : List Byte), s.initialised = true →
    exec (.crcBlk bytes) s
      = .next { s with
          crcAcc := crc8Block s.cfg.crcPoly s.crcAcc bytes
          response := .crc (crc8Block s.cfg.crcPoly s.crcAcc bytes) }

/-- R137: `RX.BYTE` and `TX.*` neither read nor write `crc_acc`, and no `CRC.*` operation reads or writes `rx_cs`. -/
def Obligations.RunningChecksumsAreIndependent : Prop :=
  ∀ (s : State) (v b : Byte) (k : Kind) (objid : ObjId) (inst : Option Half) (bytes : List Byte),
    let setAcc : State → State := fun t => { t with crcAcc := v }
    let setRxCs : State → State := fun t => { t with rx := { t.rx with cs := v } }
    exec (.rxByte b) (setAcc s) = mapNext setAcc (exec (.rxByte b) s)
      ∧ exec (txInstr k objid inst bytes) (setAcc s) = mapNext setAcc (exec (txInstr k objid inst bytes) s)
      ∧ exec .crcInit (setRxCs s) = mapNext setRxCs (exec .crcInit s)
      ∧ exec (.crcUpd b) (setRxCs s) = mapNext setRxCs (exec (.crcUpd b) s)
      ∧ exec (.crcBlk bytes) (setRxCs s) = mapNext setRxCs (exec (.crcBlk bytes) s)

/-! Reset, control and statistics. -/

/-- R340, R341: what the reset leaves wherever the spec gives a value. -/
def Obligations.ResetValues : Prop :=
  State.reset.rxState = .sync ∧ State.reset.crcAcc = State.reset.cfg.crcInit
    ∧ State.reset.stats = ⟨0, 0, 0, 0, 0, 0⟩ ∧ State.reset.env.slot = none

/-- R230, R340 to R342: `INIT mtu` performs the reset, the transaction slot included, and writes `mtu`, and is refused with
`mtu = 0`. Every other register of the block is unspecified after it. That `INIT` keeps the output trace and the ghost log is
the model's choice (log 15); so is that it stops what was still to be transmitted for the transaction and leaves the rest of
the host as it is (log 19). -/
def Obligations.InitResetsTheBlock : Prop :=
  (∀ s : State, exec (.init 0) s = .refused .zeroMtu)
  ∧ ∀ (s : State) (m : Half), m ≠ 0 →
    ∃ (t : State) (left : List Task), exec (.init m) s = .next t
      ∧ t.rxState = .sync ∧ t.crcAcc = s.cfg.crcInit ∧ t.stats = ⟨0, 0, 0, 0, 0, 0⟩ ∧ t.mtu = m
      ∧ t.initialised = true ∧ t.response = .done
      ∧ t.cfg = s.cfg ∧ t.trace = s.trace ∧ t.causes = s.causes ∧ t.inputs = s.inputs
      ∧ t.env = { s.env with slot := none, tasks := left }
      ∧ left.Sublist s.env.tasks ∧ ∀ u, u ∈ left ↔ u ∈ s.env.tasks ∧ (u.role = .reply ∨ u.role = .send)

/-- R231: `STAT.GET` returns the six counters and changes nothing. -/
def Obligations.StatGetReturnsTheCounters : Prop :=
  ∀ s : State, s.initialised = true → exec .statGet s = .next { s with response := .counters s.stats }

/-- R232: `STAT.RESET` zeroes the six counters and changes nothing else; the frame in progress goes on. -/
def Obligations.StatResetClearsTheCounters : Prop :=
  ∀ s : State, s.initialised = true →
    exec .statReset s = .next { s with stats := ⟨0, 0, 0, 0, 0, 0⟩, response := .done }

/-- R112: a reserved operation code is refused in every state. -/
def Obligations.ReservedOperationsAreRefused : Prop :=
  ∀ s : State,
    exec .reservedOp7 s = .refused (.reservedOperation 0x7)
      ∧ exec .reservedOpD s = .refused (.reservedOperation 0xD)
      ∧ exec .reservedOpE s = .refused (.reservedOperation 0xE)
      ∧ exec .reservedOpF s = .refused (.reservedOperation 0xF)

/-- R234: the refused commands: a reserved operation code, `INIT` with `mtu = 0`, and any operation other than `INIT`
before the first `INIT`, the operations being those of R110 and R111. -/
def Obligations.CommandsWithoutMeaningAreRefused : Prop :=
  ∀ (s : State) (i : Instr),
    (i.op ∈ [Op.reservedOp7, .reservedOpD, .reservedOpE, .reservedOpF] →
        ∃ code, exec i s = .refused (.reservedOperation code))
      ∧ exec (.init 0) s = .refused .zeroMtu
      ∧ (s.initialised = false → i.op ∈ guardedOps → exec i s = .refused .beforeInit)

/-- R34: `mtu` is written only by `INIT`. -/
def Obligations.OnlyInitWritesMtu : Prop :=
  ∀ (s t : State) (i : Instr), i.op ≠ .init → exec i s = .next t → t.mtu = s.mtu

/-- No operation writes the parameters or the pending inputs, and none takes an event back (R8, R11); none but `INIT` writes
the host around the block (R43), and `INIT` writes of it only the transaction slot (R341, R342) and what is in progress. That
`INIT` too keeps the trace and the ghost log is the model's choice (log 15), and so is what it does to the host's
transmissions in progress (log 19). -/
def Obligations.OperationsLeaveTheHostAlone : Prop :=
  ∀ (s t : State) (i : Instr), exec i s = .next t →
    t.cfg = s.cfg ∧ t.inputs = s.inputs ∧ s.trace <+: t.trace ∧ s.causes <+: t.causes
      ∧ (i.op ≠ .init → t.env = s.env)
      ∧ (i.op = .init → t.env.slot = none ∧ { t.env with slot := s.env.slot, tasks := s.env.tasks } = s.env)

/-! The decoder, one statement a state. -/

/-- R152: state `SYNC`. -/
def Obligations.SyncStateHuntsForTheSyncByte : Prop :=
  ∀ (s : State) (b : Byte), s.initialised = true → s.rxState = .sync →
    exec (.rxByte b) s
      = .next { s with
          response := .done
          stats := { s.stats with rxBytes := ctrAdd s.cfg s.stats.rxBytes 1 }
          rx := if b = s.cfg.syncVal then
              { s.rx with cs := crc8Byte s.cfg.crcPoly s.cfg.crcInit b, count := 1 }
            else s.rx
          rxState := if b = s.cfg.syncVal then .type else .sync }

/-- R153: state `TYPE`. -/
def Obligations.TypeStateChecksVersionAndKind : Prop :=
  ∀ (s : State) (b : Byte), s.initialised = true → s.rxState = .type →
    (b &&& s.cfg.verMask ≠ s.cfg.verVal →
      exec (.rxByte b) s
        = .next { byteTaken b s with rxState := .sync, causes := s.causes ++ [.resyncVersion] })
    ∧ (b &&& s.cfg.verMask = s.cfg.verVal → (∀ k, codeOf s.cfg k ≠ b &&& ~~~s.cfg.verMask) →
      exec (.rxByte b) s
        = .next { byteTaken b s with rxState := .sync, causes := s.causes ++ [.resyncKind] })
    ∧ (b &&& s.cfg.verMask = s.cfg.verVal → (∃ k, codeOf s.cfg k = b &&& ~~~s.cfg.verMask) →
      exec (.rxByte b) s
        = .next { byteTaken b s with
            rx := { (byteTaken b s).rx with type := b, len := 0, fld := 0 }
            rxState := .size })

/-- R154: state `SIZE`. -/
def Obligations.SizeStateAssemblesTheLength : Prop :=
  ∀ (s : State) (b : Byte), s.initialised = true → s.rxState = .size →
    let len := s.rx.len ||| (b.setWidth 16 <<< (8 * s.rx.fld.toNat))
    (s.rx.fld ≠ 1 →
      exec (.rxByte b) s
        = .next { byteTaken b s with rx := { (byteTaken b s).rx with len := len, fld := s.rx.fld + 1 } })
    ∧ (s.rx.fld = 1 → (len.toNat < 8 ∨ 10 + s.cfg.maxPayload < len.toNat) →
      exec (.rxByte b) s
        = .next { byteTaken b s with
            rx := { (byteTaken b s).rx with len := len, fld := 2 }
            rxState := .sync
            stats := { (byteTaken b s).stats with rxErrors := ctrAdd s.cfg s.stats.rxErrors 1 }
            causes := s.causes ++ [.errLenRange] })
    ∧ (s.rx.fld = 1 → 8 ≤ len.toNat → len.toNat ≤ 10 + s.cfg.maxPayload →
      exec (.rxByte b) s
        = .next { byteTaken b s with
            rx := { (byteTaken b s).rx with len := len, fld := 0, objid := 0 }
            rxState := .objid })

/-- R155: state `OBJID`, accumulation: the first three bytes write `rx_cs`, `rx_objid` and `rx_fld` only, the fourth is
followed by `objid_complete()`. -/
def Obligations.ObjIdStateAssemblesTheId : Prop :=
  ∀ (s : State) (b : Byte), s.initialised = true → s.rxState = .objid →
    let t : State := { byteTaken b s with
      rx := { (byteTaken b s).rx with
        objid := s.rx.objid ||| (b.setWidth 32 <<< (8 * s.rx.fld.toNat))
        fld := s.rx.fld + 1 } }
    (s.rx.fld ≠ 3 → exec (.rxByte b) s = .next t) ∧ (s.rx.fld = 3 → exec (.rxByte b) s = .next (objidComplete t))

/-- R156, R157: `objid_complete()`: the latch of the oracle's answer, the three tests in their order, and the choice of the
next state. -/
def Obligations.ObjIdCompletionValidatesTheHeader : Prop :=
  ∀ s : State,
    let rejected := fun (regs : RxRegs) (cause : Cause) => { s with
      rx := regs
      rxState := RxState.sync
      stats := { s.stats with rxErrors := ctrAdd s.cfg s.stats.rxErrors 1 }
      causes := s.causes ++ [cause] }
    (objLookup s s.rx.objid = none →
      let regs := { s.rx with found := false }
      (rxKind s ≠ some .objReq → objidComplete s = rejected regs .errUnknownObj)
        ∧ (rxKind s = some .objReq → s.rx.count.toNat ≠ s.rx.len.toNat →
          objidComplete s = rejected regs .errLenMismatch)
        ∧ (rxKind s = some .objReq → s.rx.count.toNat = s.rx.len.toNat →
          objidComplete s = { s with rx := { regs with paylen := 0, instid := 0, fld := 0 }, rxState := .cs }))
    ∧ ∀ e : ObjEntry, objLookup s s.rx.objid = some e →
      let regs := { s.rx with found := true, single := e.single }
      let n := if rxKind s ∈ [some Kind.objReq, some .ack, some .nack] then 0 else e.size.toNat
      let il := if e.single then 0 else 2
      (s.cfg.maxPayload < n → objidComplete s = rejected regs .errPayloadSize)
        ∧ (n ≤ s.cfg.maxPayload → s.rx.count.toNat + il + n ≠ s.rx.len.toNat →
          objidComplete s = rejected regs .errLenMismatch)
        ∧ (n ≤ s.cfg.maxPayload → s.rx.count.toNat + il + n = s.rx.len.toNat →
          objidComplete s = { s with
            rx := { regs with paylen := BitVec.ofNat 16 n, instid := 0, fld := 0 }
            rxState := if e.single then (if 0 < n then .data else .cs) else .instid })

/-- R158: state `INSTID`. -/
def Obligations.InstIdStateAssemblesTheInstance : Prop :=
  ∀ (s : State) (b : Byte), s.initialised = true → s.rxState = .instid →
    let instid := s.rx.instid ||| (b.setWidth 16 <<< (8 * s.rx.fld.toNat))
    (s.rx.fld ≠ 1 →
      exec (.rxByte b) s
        = .next { byteTaken b s with
            rx := { (byteTaken b s).rx with instid := instid, fld := s.rx.fld + 1 } })
    ∧ (s.rx.fld = 1 →
      exec (.rxByte b) s
        = .next { byteTaken b s with
            rx := { (byteTaken b s).rx with instid := instid, fld := 0 }
            rxState := if s.rx.paylen = 0 then .cs else .data })

/-- R159: state `DATA` stores the byte at index `rx_fld`, which is an index of the buffer (R60), and at no other. -/
def Obligations.DataStateStoresThePayload : Prop :=
  ∀ (s : State) (b : Byte), s.initialised = true → s.rxState = .data → s.rx.fld.toNat < s.cfg.maxPayload →
    ∃ buf : Memory,
      exec (.rxByte b) s
        = .next { byteTaken b s with
            rxBuf := buf
            rx := { (byteTaken b s).rx with fld := s.rx.fld + 1 }
            rxState := if s.rx.fld + 1 = s.rx.paylen then .cs else .data }
        ∧ buf.read s.rx.fld.toNat = some b
        ∧ ∀ a, a ≠ s.rx.fld.toNat → buf.read a = s.rxBuf.read a

/-- R160: state `CS`. The byte is compared, not folded; on a match the frame is delivered once. -/
def Obligations.ChecksumStateDeliversOrCounts : Prop :=
  ∀ (s : State) (b : Byte), s.initialised = true → s.rxState = .cs →
    (b ≠ s.rx.cs →
      exec (.rxByte b) s
        = .next { byteCounted s with
            rxState := .sync
            stats := { (byteCounted s).stats with rxErrors := ctrAdd s.cfg s.stats.rxErrors 1 }
            causes := s.causes ++ [.errChecksum] })
    ∧ (b = s.rx.cs → (s.rx.count + 1).toNat ≠ s.rx.len.toNat + 1 →
      exec (.rxByte b) s
        = .next { byteCounted s with
            rxState := .sync
            stats := { (byteCounted s).stats with rxErrors := ctrAdd s.cfg s.stats.rxErrors 1 }
            causes := s.causes ++ [.errCount] })
    ∧ ∀ (k : Kind) (payload : List Byte),
      b = s.rx.cs → (s.rx.count + 1).toNat = s.rx.len.toNat + 1 → rxKind s = some k →
      payload.length = s.rx.paylen.toNat → (∀ a, (h : a < payload.length) → s.rxBuf.read a = some payload[a]) →
      exec (.rxByte b) s
        = .next { byteCounted s with
            rxState := .sync
            stats := { (byteCounted s).stats with rxObjects := ctrAdd s.cfg s.stats.rxObjects 1 }
            trace := s.trace ++ [.deliver ⟨k, s.rx.objid, s.rx.found, s.rx.instid, s.rx.paylen, payload⟩] }

/-! The decoder as a whole. -/

/-- R150: in a sound state `RX.BYTE` always completes, counts the byte, and writes nothing outside the decoder. -/
def Obligations.RxByteAlwaysCompletes : Prop :=
  ∀ (s : State) (b : Byte), Sound s → s.initialised = true →
    ∃ t, exec (.rxByte b) s = .next t
      ∧ t.stats.rxBytes = ctrAdd s.cfg s.stats.rxBytes 1 ∧ t.response = .done ∧ sameOutsideDecoder s t

/-- R162: the sequencer moves only along the transition table; `rx_errors` moves only on a return to `SYNC` from `SIZE`,
`OBJID` or `CS`; a `Deliver` event is emitted only in `CS`, at most one, and never with an error. -/
def Obligations.SequencerFollowsTheTransitionTable : Prop :=
  ∀ (s t : State) (b : Byte), exec (.rxByte b) s = .next t →
    t.rxState ∈ successors s.rxState
      ∧ (t.stats.rxErrors = s.stats.rxErrors
          ∨ (t.stats.rxErrors = ctrAdd s.cfg s.stats.rxErrors 1 ∧ t.rxState = .sync ∧ t.trace = s.trace
              ∧ s.rxState ∈ [RxState.size, .objid, .cs]))
      ∧ (t.trace = s.trace
          ∨ (s.rxState = .cs ∧ t.stats.rxErrors = s.stats.rxErrors ∧ t.causes = s.causes
              ∧ t.stats.rxObjects = ctrAdd s.cfg s.stats.rxObjects 1
              ∧ ∃ d, t.trace = s.trace ++ [.deliver d]))

/-- R304, R305, R306: one byte raises at most one event; the counted causes add one to `rx_errors`, the others none. -/
def Obligations.OneByteRaisesAtMostOneEvent : Prop :=
  ∀ (s t : State) (b : Byte), exec (.rxByte b) s = .next t →
    (t.causes = s.causes ∧ t.stats.rxErrors = s.stats.rxErrors)
      ∨ ∃ c, t.causes = s.causes ++ [c] ∧ t.rxState = .sync ∧ t.trace = s.trace
          ∧ t.stats.rxErrors = if isCounted c then ctrAdd s.cfg s.stats.rxErrors 1 else s.stats.rxErrors

/-- R186: in a sound state the count test of `CS` never fails on its own. -/
def Obligations.CountTestNeverFails : Prop :=
  ∀ (s t : State) (b : Byte), Sound s → exec (.rxByte b) s = .next t → t.causes ≠ s.causes ++ [.errCount]

/-- R161, R103: what a `Deliver` event can carry. -/
def Obligations.DeliveredFramesAreLegal : Prop :=
  ∀ (s t : State) (b : Byte) (d : Deliver), Sound s → exec (.rxByte b) s = .next t →
    t.trace = s.trace ++ [.deliver d] →
      d.payload.length = d.paylen.toNat ∧ d.paylen.toNat ≤ s.cfg.maxPayload
        ∧ (carriesPayload d.kind = false → d.payload = [])
        ∧ (d.found = false → d.kind = .objReq ∧ d.instid = 0 ∧ d.payload = [])

/-- R250, R29: once a frame is past its object id, a change of the object model does not touch it. -/
def Obligations.LookupIsLatched : Prop :=
  ∀ (s : State) (b : Byte) (objects : List ObjEntry), s.rxState ∈ [RxState.instid, .data, .cs] →
    exec (.rxByte b) { s with env := { s.env with objects := objects } }
      = mapNext (fun t => { t with env := { t.env with objects := objects } }) (exec (.rxByte b) s)

/-! The encoder. -/

/-- R200: what a `TX.*` operation does when the payload fits: the whole frame to the transport, the counters, `OK`; the
decoder, `crc_acc`, `mtu` and every index of `tx_buf` behind the frame are as before. -/
def Obligations.TransmitSendsTheFrame : Prop :=
  ∀ (s : State) (k : Kind) (objid : ObjId) (inst : Option Half) (payload : List Byte),
    s.initialised = true → s.mtu ≠ 0 → s.cfg.wf = true → payload.length ≤ s.cfg.maxPayload →
    let frame := frameBytes s.cfg k objid inst payload
    ∃ (buf : Memory) (chunks : List (List Byte)),
      exec (txInstr k objid inst payload) s
        = .next { s with
            response := .ok
            txBuf := buf
            txLen := BitVec.ofNat 16 frame.length
            trace := s.trace ++ chunks.map Event.sink
            stats := { s.stats with
              txBytes := ctrAdd s.cfg s.stats.txBytes frame.length
              txObjects := ctrAdd s.cfg s.stats.txObjects 1 } }
      ∧ chunks.flatten = frame
      ∧ buf.readFrom 0 frame.length = some frame
      ∧ ∀ a, frame.length ≤ a → buf.read a = s.txBuf.read a

/-- R206: the chunks are greedy: `ceil(tx_len / mtu)` of them, none empty, all but the last of exactly `mtu` bytes. -/
def Obligations.ChunksAreGreedy : Prop :=
  ∀ (s t : State) (k : Kind) (objid : ObjId) (inst : Option Half) (payload : List Byte),
    exec (txInstr k objid inst payload) s = .next t → t.response = .ok →
    ∃ chunks : List (List Byte),
      t.trace = s.trace ++ chunks.map Event.sink
        ∧ chunks.flatten = frameBytes s.cfg k objid inst payload
        ∧ (∀ c ∈ chunks, 1 ≤ c.length ∧ c.length ≤ s.mtu.toNat)
        ∧ (∀ c ∈ chunks.dropLast, c.length = s.mtu.toNat)
        ∧ chunks.length = (chunks.flatten.length + s.mtu.toNat - 1) / s.mtu.toNat

/-- R207: an oversize payload is a `FAIL`, nothing is transmitted, and nothing but `tx_errors` changes; `n = MAX_PAYLOAD`
is accepted, and there is no other way to fail. -/
def Obligations.OversizePayloadFails : Prop :=
  ∀ (s : State) (k : Kind) (objid : ObjId) (inst : Option Half) (payload : List Byte), s.initialised = true →
    (s.cfg.maxPayload < payload.length →
      exec (txInstr k objid inst payload) s
        = .next { s with
            response := .fail
            stats := { s.stats with txErrors := ctrAdd s.cfg s.stats.txErrors 1 } })
    ∧ (s.mtu ≠ 0 → payload.length ≤ s.cfg.maxPayload →
      ∃ t, exec (txInstr k objid inst payload) s = .next t ∧ t.response = .ok)

/-- R91, R100: the layout of a frame: sync byte, type byte, declared length (the checksum not counted), object
id, the optional instance id, the payload, the checksum over everything before it. -/
def Obligations.FrameLayout : Prop :=
  ∀ (c : Config) (k : Kind) (objid : ObjId) (payload : List Byte) (v : Half), payload.length ≤ 65525 →
    (frameBytes c k objid none payload).length = payload.length + 9
      ∧ (frameBytes c k objid (some v) payload).length = payload.length + 11
      ∧ (let body := [c.syncVal, c.verVal ||| codeOf c k] ++ bytesOfNat 2 (8 + payload.length)
            ++ bytesOfNat 4 objid.toNat ++ payload
         frameBytes c k objid none payload = body ++ [crc8Block c.crcPoly c.crcInit body])
      ∧ (let body := [c.syncVal, c.verVal ||| codeOf c k] ++ bytesOfNat 2 (10 + payload.length)
            ++ bytesOfNat 4 objid.toNat ++ bytesOfNat 2 v.toNat ++ payload
         frameBytes c k objid (some v) payload = body ++ [crc8Block c.crcPoly c.crcInit body])

/-- R210: a `TX.*` operation neither reads nor writes a decoder register. -/
def Obligations.TransmitIgnoresTheDecoder : Prop :=
  ∀ (s : State) (rxState : RxState) (regs : RxRegs) (rxBuf : Memory) (k : Kind) (objid : ObjId) (inst : Option Half)
    (payload : List Byte),
    exec (txInstr k objid inst payload) { s with rxState := rxState, rx := regs, rxBuf := rxBuf }
      = mapNext (fun t => { t with rxState := rxState, rx := regs, rxBuf := rxBuf })
          (exec (txInstr k objid inst payload) s)

/-- R72: a received byte and a transmission may come in either order: the decoder, the encoder and the counters end the
same, and each path is as if it had run alone. -/
def Obligations.ReceiveAndTransmitCommute : Prop :=
  ∀ (s : State) (b : Byte) (k : Kind) (objid : ObjId) (inst : Option Half) (payload : List Byte),
    Sound s → s.initialised = true →
    ∃ r x rx xr,
      exec (.rxByte b) s = .next r ∧ exec (txInstr k objid inst payload) s = .next x
        ∧ exec (txInstr k objid inst payload) r = .next rx ∧ exec (.rxByte b) x = .next xr
        ∧ sameDecoder rx xr ∧ sameDecoder r xr
        ∧ rx.txBuf = xr.txBuf ∧ rx.txLen = xr.txLen ∧ rx.stats = xr.stats
        ∧ rx.txBuf = x.txBuf ∧ rx.stats.txBytes = x.stats.txBytes

/-! Whole frames. -/

/-- R187: a frame the receiver's object model agrees with, received in `SYNC`, is delivered exactly once, whole, without
an error. The frame rows run `rx.frame` of R115 (log 12). -/
def Obligations.AgreeingFrameIsDeliveredOnce : Prop :=
  ∀ (s : State) (k : Kind) (objid : ObjId) (inst : Option Half) (payload : List Byte) (e : ObjEntry),
    s.cfg.wf = true → s.initialised = true → s.rxState = .sync → objLookup s objid = some e →
    agreesWithModel s.cfg e k inst payload →
    ∃ t, exec (frameInstr k objid inst payload) s = .next t
      ∧ t.trace = s.trace ++ [delivered k objid true inst payload] ∧ t.rxState = .sync ∧ t.causes = s.causes
      ∧ t.stats = countedFrame s.cfg (frameBytes s.cfg k objid inst payload).length s.stats
      ∧ sameOutsideDecoder s t

/-- R187: the same for a request about an object the receiver does not know, in the format without instance id. That the row
`frame.OBJ_REQ` runs `rx.frame` of R115 is the model's reading (log 12). -/
def Obligations.UnknownRequestIsDelivered : Prop :=
  ∀ (s : State) (objid : ObjId),
    s.cfg.wf = true → s.initialised = true → s.rxState = .sync → objLookup s objid = none →
    ∃ t, exec (.frameObjReq objid none []) s = .next t
      ∧ t.trace = s.trace ++ [delivered .objReq objid false none []] ∧ t.rxState = .sync ∧ t.causes = s.causes
      ∧ t.stats = countedFrame s.cfg 9 s.stats ∧ sameOutsideDecoder s t

/-- R189: an inbound ack or nack for an object the receiver does not know is one counted error and no delivery. That the rows
`frame.ACK` and `frame.NACK` run `rx.frame` of R115 is the model's reading (log 12). -/
def Obligations.AckForUnknownObjectIsCounted : Prop :=
  ∀ (s : State) (k : Kind) (objid : ObjId), k = .ack ∨ k = .nack →
    s.cfg.wf = true → s.initialised = true → s.rxState = .sync → objLookup s objid = none →
    ∃ t, exec (frameInstr k objid none []) s = .next t
      ∧ t.trace = s.trace ∧ t.causes = s.causes ++ [.errUnknownObj]
      ∧ t.stats = countedBadFrame s.cfg 9 s.stats ∧ sameOutsideDecoder s t

/-- R95, R153: a reserved kind code leaves the frame at its type byte, uncounted. -/
def Obligations.ReservedKindIsLeftUncounted : Prop :=
  ∀ s : State, s.cfg.wf = true → s.initialised = true → s.rxState = .sync →
    let left := fun code : Byte =>
      Host.Outcome.next (φ := Fault) (ρ := Refusal)
        { s with
          response := .done
          rx := { s.rx with
            count := 2
            cs := crc8Byte s.cfg.crcPoly (crc8Byte s.cfg.crcPoly s.cfg.crcInit s.cfg.syncVal) (s.cfg.verVal ||| code) }
          stats := { s.stats with rxBytes := ctrAdd s.cfg s.stats.rxBytes 2 }
          causes := s.causes ++ [.resyncKind] }
    let reserved := fun code : Byte => code &&& s.cfg.verMask = 0 ∧ ∀ k, codeOf s.cfg k ≠ code
    (reserved 5 → exec .frameReservedKind5 s = left 5)
      ∧ (reserved 6 → exec .frameReservedKind6 s = left 6)
      ∧ (reserved 7 → exec .frameReservedKind7 s = left 7)

/-- R253: in a sound state every frame row runs to its end, whatever its operands, and writes nothing outside the decoder;
before the first `INIT` it is refused. What the rows run, a sequence of `RX.BYTE` operations, is the model's reading: the
bytes `tx.KIND` would emit, none for an oversize payload (log 12), two bytes for a reserved kind (log 13). -/
def Obligations.FramesAlwaysComplete : Prop :=
  ∀ (s : State) (i : Instr), i.op ∈ frameOps →
    (Sound s → s.initialised = true → ∃ t, exec i s = .next t ∧ Sound t ∧ sameOutsideDecoder s t)
      ∧ (s.initialised = false → exec i s = .refused .beforeInit)

/-- R187, both ends: what one instance transmits, fed byte by byte as `RX.BYTE` commands to another with the same
parameters and an object model that agrees, is delivered there exactly once with no error, however it was chunked. The
receiver owes its Object Dispatch nothing, or is without one (log 26). -/
def Obligations.TransmittedFrameCrossesTheLink : Prop :=
  ∀ (s r : State) (k : Kind) (objid : ObjId) (inst : Option Half) (payload : List Byte) (e : ObjEntry),
    s.cfg.wf = true → s.initialised = true → s.mtu ≠ 0 →
    r.cfg = s.cfg → r.initialised = true → r.rxState = .sync → ¬ dispatchBusy r → objLookup r objid = some e →
    agreesWithModel s.cfg e k inst payload →
    ∃ (t : State) (chunks : List (List Byte)) (u : State),
      exec (txInstr k objid inst payload) s = .next t
        ∧ t.response = .ok ∧ t.trace = s.trace ++ chunks.map Event.sink
        ∧ Host.Core.run Sys2Proof.core chunks.flatten.length { r with inputs := rxCommands chunks.flatten } = .next u
        ∧ u.trace = r.trace ++ [delivered k objid true inst payload]
        ∧ u.rxState = .sync ∧ u.stats.rxErrors = r.stats.rxErrors ∧ u.inputs = []

/-! Invariants and isolation. -/

/-- The state after reset is sound, the host's part too (the registers the spec leaves unspecified hold values the model
names, log 4, log 5). -/
def Obligations.ResetStateIsSound : Prop := Sound State.reset ∧ HostSound State.reset

/-- R49, R60, R61, R185, R186, R235: every step, of the block or of the host, keeps a state sound. R254, R264, R265: and it
keeps the host's part sound: never two transactions, never a received byte between a `Deliver` event and Dispatch (that
Dispatch is connected or not is the model's switch, log 26). -/
def Obligations.EveryStepKeepsTheInvariant : Prop :=
  ∀ s t : State, step s = .next t → (Sound s → Sound t) ∧ (HostSound s → HostSound t)

/-- R49, R60: no step from a sound state faults: nothing unwritten is read and no index leaves its buffer. -/
def Obligations.NoStepFaults : Prop :=
  ∀ s : State, Sound s → NoFault (step s)

/-- R42, R48, R49: two states that differ only in values the spec leaves unspecified step to two such states, with the
same events, results and counters: nothing unspecified is ever observed. -/
def Obligations.UnspecifiedValuesAreNeverObserved : Prop :=
  ∀ s t : State, sameVisible s t → Related sameVisible (step s) (step t)

/-! The host around the block. -/

/-- R255: an inbound update with the wildcard instance id is reported and changes no instance, and no ack is sent. -/
def Obligations.WildcardUpdateIsRejected : Prop :=
  ∀ (s : State) (d : Deliver) (draw : Draw),
    canDispatch s d → d.kind = .obj ∨ d.kind = .objAck → d.instid = s.cfg.allInstances →
      hostMove (.dispatch draw) s
        = .next { s with env := { consumed s with reports := s.env.reports ++ [.wildcardUpdate d.objid] } }

/-- R251, R255, R256: an update whose unpack succeeds is stored, the instance created if absent; one with ack is then
acknowledged by a frame of its own; after a failed unpack nothing is stored and nothing is sent. In each case it resolves the
pending transaction it matches (that a failed unpack does not keep it from that is the model's reading, log 17). What is
stored has the size the object has now; it is the payload where that is its size (log 18 for the rest). -/
def Obligations.StoredUpdateIsAcknowledged : Prop :=
  ∀ (s : State) (d : Deliver) (draw : Draw),
    canDispatch s d → d.kind = .obj ∨ d.kind = .objAck → d.instid ≠ s.cfg.allInstances →
    ∃ u, hostMove (.dispatch draw) s = .next u ∧ u.trace = s.trace
      ∧ (∀ p, s.env.slot = some p → awaits s.cfg p.awaited d → u.env.slot = some { p with signal := true })
      ∧ ((∀ p, s.env.slot = some p → ¬ awaits s.cfg p.awaited d) → u.env.slot = s.env.slot)
      ∧ (draw = none → u.env.store = s.env.store ∧ u.env.tasks = s.env.tasks)
      ∧ ∀ e, objLookup s d.objid = some e → draw ≠ none →
        (∃ v, instanceValue u d.objid d.instid = some v ∧ v.length = e.size.toNat
            ∧ (d.payload.length = e.size.toNat → v = d.payload))
          ∧ (∀ (o : ObjId) (i : Half), (o, i) ≠ (d.objid, d.instid) → instanceValue u o i = instanceValue s o i)
          ∧ (d.kind = .obj → u.env.tasks = s.env.tasks)
          ∧ (d.kind = .objAck → s.initialised = true → s.mtu ≠ 0 →
            ∃ (t : State) (chunks : List (List Byte)),
              hostMove (.issue s.env.tasks.length) u = .next t
                ∧ t.trace = s.trace ++ chunks.map Event.sink
                ∧ chunks.flatten
                    = frameBytes s.cfg .ack d.objid (if e.single then none else some d.instid) []
                ∧ t.env = { u.env with tasks := s.env.tasks })

/-- R257: a request about an unknown object is answered with a nack that carries the raw id and no instance id; one about a
known object with an object-update frame for the instance requested, or for every live instance, each once and ascending
(D34), and with nothing where `pack` fails (D33). What `pack` gives has the object's size (R251); it is the instance's current
value where the object model holds one of that size, and free where it holds none (U8, log 18). -/
def Obligations.RequestsAreAnswered : Prop :=
  ∀ (s : State) (d : Deliver) (draw : Draw),
    canDispatch s d → d.kind = .objReq → s.initialised = true → s.mtu ≠ 0 →
    let k := s.env.tasks.length
    (d.found = false →
      ∃ (t : State) (chunks : List (List Byte)),
        playMoves [.dispatch draw, .issue k] s = .next t
          ∧ t.trace = s.trace ++ chunks.map Event.sink
          ∧ chunks.flatten = frameBytes s.cfg .nack d.objid none [] ∧ t.env = consumed s)
    ∧ (d.found = true → d.instid ≠ s.cfg.allInstances →
      (∀ (e : ObjEntry) (bytes : List Byte),
        objLookup s d.objid = some e → e.size.toNat ≤ s.cfg.maxPayload →
        ∃ (t : State) (chunks : List (List Byte)) (value : List Byte),
          playMoves [.dispatch draw, .pack k (some bytes), .issue k] s = .next t
            ∧ value.length = e.size.toNat
            ∧ (∀ w, instanceValue s d.objid d.instid = some w → w.length = e.size.toNat → value = w)
            ∧ (instanceValue s d.objid d.instid = none → bytes.length = e.size.toNat → value = bytes)
            ∧ t.trace = s.trace ++ chunks.map Event.sink
            ∧ chunks.flatten = frameBytes s.cfg .obj d.objid (if e.single then none else some d.instid) value
            ∧ t.env = consumed s)
      ∧ playMoves [.dispatch draw, .pack k none] s = .next { s with env := consumed s })
    ∧ (d.found = true → d.instid = s.cfg.allInstances →
      ∃ insts : List Half,
        insts.Pairwise (fun i j => i.toNat < j.toNat)
          ∧ (∀ i, i ∈ insts ↔ instanceValue s d.objid i ≠ none)
          ∧ hostMove (.dispatch draw) s
              = .next { s with env := { consumed s with
                  tasks := if insts = [] then s.env.tasks
                    else s.env.tasks ++ [⟨.reply, d.objid, d.instid, insts, none, false⟩] } })

/-- R258, R259: an inbound ack resolves the pending transaction it matches, whose waiting caller then releases the slot and
has success reported; one that matches none is ignored; a nack resolves none. That Dispatch gives the completion signal of R264
and that the release and the report are a later move of their own, once nothing is left to transmit, is the model's choice
(log 19). -/
def Obligations.AckResolvesTheMatchingTransaction : Prop :=
  ∀ (s : State) (d : Deliver) (draw : Draw), canDispatch s d →
    let run := hostMove (.dispatch draw) s
    (d.kind = .ack → ∀ p, s.env.slot = some p → awaits s.cfg p.awaited d →
        run = .next { s with env := { consumed s with slot := some { p with signal := true } } }
          ∧ (txnSent s → playMoves [.dispatch draw, .wake] s
            = .next { s with env := { consumed s with
                slot := none
                reports := s.env.reports ++ [.resolved p.awaited] } }))
      ∧ (d.kind = .ack → (∀ p, s.env.slot = some p → ¬ awaits s.cfg p.awaited d) →
        run = .next { s with env := consumed s })
      ∧ (d.kind = .nack → run = .next { s with env := consumed s })

/-- R261, R263: send-object without ack, of one instance for which `pack` succeeds: one object-update frame, success reported,
no transaction state touched. Forming the operands and issuing the operation are moves of their own (log 16). What `pack`
gives has the object's size (R251); it is the instance's current value where the object model holds one of that size, and free
where it holds none (U8, log 18). -/
def Obligations.PlainSendTransmitsOneUpdate : Prop :=
  ∀ (s : State) (objid : ObjId) (instid : Half) (e : ObjEntry) (bytes : List Byte),
    objLookup s objid = some e → e.size.toNat ≤ s.cfg.maxPayload → instid ≠ s.cfg.allInstances →
    s.initialised = true → s.mtu ≠ 0 →
    let k := s.env.tasks.length
    ∃ (t : State) (chunks : List (List Byte)) (value : List Byte),
      playMoves [.send objid instid, .pack k (some bytes), .issue k] s = .next t
        ∧ value.length = e.size.toNat
        ∧ (∀ w, instanceValue s objid instid = some w → w.length = e.size.toNat → value = w)
        ∧ (instanceValue s objid instid = none → bytes.length = e.size.toNat → value = bytes)
        ∧ t.trace = s.trace ++ chunks.map Event.sink
        ∧ chunks.flatten = frameBytes s.cfg .obj objid (if e.single then none else some instid) value
        ∧ t.env = { s.env with reports := s.env.reports ++ [.sent objid instid] }

/-- R265: while a transaction is pending a second caller blocks: nothing is sent and the slot keeps what it awaits. -/
def Obligations.SecondTransactionBlocks : Prop :=
  ∀ (s : State) (p : Slot) (r : TxnRequest) (k : Nat), s.env.slot = some p →
    hostMove (.startTxn r) s = .next { s with env := { s.env with blocked := s.env.blocked ++ [r] } }
      ∧ hostMove (.resume k) s = .next s

/-- R266, R267: the timeout of a waiting caller reports failure and frees the slot at once, with no message to the peer. It
passes only at a point at which no resolving frame has been delivered (U16). -/
def Obligations.TimeoutFreesTheSlot : Prop :=
  ∀ (s : State) (p : Slot), s.env.slot = some p → txnSent s →
    (p.signal = false → (∀ d, nextDeliver s = some d → ¬ awaits s.cfg p.awaited d) →
      hostMove .timeout s
        = .next { s with env := { s.env with slot := none, reports := s.env.reports ++ [.timedOut p.awaited] } })
    ∧ (p.signal = true → hostMove .timeout s = .next s)
    ∧ ∀ d, nextDeliver s = some d → d.kind = .ack → awaits s.cfg p.awaited d → hostMove .timeout s = .next s

/-- R262, R264: a request in the free slot records what it awaits and then transmits one object-request frame, with an
instance id exactly where the host's own model knows the object as multi-instance (R261). A request for an object its own
model does not know goes out without instance id: the model's choice (log 18). -/
def Obligations.RequestTakesTheSlotAndSends : Prop :=
  ∀ (s : State) (objid : ObjId) (instid : Half), s.env.slot = none → s.initialised = true → s.mtu ≠ 0 →
    ∃ (u t : State) (chunks : List (List Byte)) (inst : Option Half),
      hostMove (.startTxn ⟨.request, objid, instid⟩) s = .next u
        ∧ u.env.slot = some ⟨⟨objid, instid⟩, false⟩ ∧ u.trace = s.trace
        ∧ hostMove (.issue s.env.tasks.length) u = .next t
        ∧ t.trace = s.trace ++ chunks.map Event.sink
        ∧ chunks.flatten = frameBytes s.cfg .objReq objid inst []
        ∧ (∀ e, objLookup s objid = some e → inst = if e.single then none else some instid)
        ∧ (objLookup s objid = none → inst = none)
        ∧ t.env = { s.env with slot := some ⟨⟨objid, instid⟩, false⟩ }
end

