-- ==== Sys2Proof/Laws/State.lean ====
section
/-! SUPPORT. One lemma per field per update: what each named update of a state writes, and that it leaves every other
field alone. -/

namespace Sys2Proof.Machine

/-! The fields after the response port. -/

@[simp] theorem respond_cfg (r : Response) (s : State) : (respond r s).cfg = s.cfg := rfl
@[simp] theorem respond_rxState (r : Response) (s : State) : (respond r s).rxState = s.rxState := rfl
@[simp] theorem respond_rx (r : Response) (s : State) : (respond r s).rx = s.rx := rfl
@[simp] theorem respond_rxBuf (r : Response) (s : State) : (respond r s).rxBuf = s.rxBuf := rfl
@[simp] theorem respond_txBuf (r : Response) (s : State) : (respond r s).txBuf = s.txBuf := rfl
@[simp] theorem respond_txLen (r : Response) (s : State) : (respond r s).txLen = s.txLen := rfl
@[simp] theorem respond_mtu (r : Response) (s : State) : (respond r s).mtu = s.mtu := rfl
@[simp] theorem respond_initialised (r : Response) (s : State) : (respond r s).initialised = s.initialised := rfl
@[simp] theorem respond_crcAcc (r : Response) (s : State) : (respond r s).crcAcc = s.crcAcc := rfl
@[simp] theorem respond_stats (r : Response) (s : State) : (respond r s).stats = s.stats := rfl
@[simp] theorem respond_response (r : Response) (s : State) : (respond r s).response = r := rfl
@[simp] theorem respond_trace (r : Response) (s : State) : (respond r s).trace = s.trace := rfl
@[simp] theorem respond_causes (r : Response) (s : State) : (respond r s).causes = s.causes := rfl
@[simp] theorem respond_freeDraws (r : Response) (s : State) : (respond r s).freeDraws = s.freeDraws := rfl
@[simp] theorem respond_inputs (r : Response) (s : State) : (respond r s).inputs = s.inputs := rfl
@[simp] theorem respond_env (r : Response) (s : State) : (respond r s).env = s.env := rfl

/-! The fields after the output trace. -/

@[simp] theorem emit_cfg (e : Event) (s : State) : (emit e s).cfg = s.cfg := rfl
@[simp] theorem emit_rxState (e : Event) (s : State) : (emit e s).rxState = s.rxState := rfl
@[simp] theorem emit_rx (e : Event) (s : State) : (emit e s).rx = s.rx := rfl
@[simp] theorem emit_rxBuf (e : Event) (s : State) : (emit e s).rxBuf = s.rxBuf := rfl
@[simp] theorem emit_txBuf (e : Event) (s : State) : (emit e s).txBuf = s.txBuf := rfl
@[simp] theorem emit_txLen (e : Event) (s : State) : (emit e s).txLen = s.txLen := rfl
@[simp] theorem emit_mtu (e : Event) (s : State) : (emit e s).mtu = s.mtu := rfl
@[simp] theorem emit_initialised (e : Event) (s : State) : (emit e s).initialised = s.initialised := rfl
@[simp] theorem emit_crcAcc (e : Event) (s : State) : (emit e s).crcAcc = s.crcAcc := rfl
@[simp] theorem emit_stats (e : Event) (s : State) : (emit e s).stats = s.stats := rfl
@[simp] theorem emit_response (e : Event) (s : State) : (emit e s).response = s.response := rfl
@[simp] theorem emit_trace (e : Event) (s : State) : (emit e s).trace = s.trace ++ [e] := rfl
@[simp] theorem emit_causes (e : Event) (s : State) : (emit e s).causes = s.causes := rfl
@[simp] theorem emit_freeDraws (e : Event) (s : State) : (emit e s).freeDraws = s.freeDraws := rfl
@[simp] theorem emit_inputs (e : Event) (s : State) : (emit e s).inputs = s.inputs := rfl
@[simp] theorem emit_env (e : Event) (s : State) : (emit e s).env = s.env := rfl

/-! The fields after `error(cause)` (R304). -/

@[simp] theorem countedError_cfg (c : Cause) (s : State) : (countedError c s).cfg = s.cfg := rfl
@[simp] theorem countedError_rxState (c : Cause) (s : State) : (countedError c s).rxState = .sync := rfl
@[simp] theorem countedError_rx (c : Cause) (s : State) : (countedError c s).rx = s.rx := rfl
@[simp] theorem countedError_rxBuf (c : Cause) (s : State) : (countedError c s).rxBuf = s.rxBuf := rfl
@[simp] theorem countedError_txBuf (c : Cause) (s : State) : (countedError c s).txBuf = s.txBuf := rfl
@[simp] theorem countedError_txLen (c : Cause) (s : State) : (countedError c s).txLen = s.txLen := rfl
@[simp] theorem countedError_mtu (c : Cause) (s : State) : (countedError c s).mtu = s.mtu := rfl
@[simp] theorem countedError_initialised (c : Cause) (s : State) : (countedError c s).initialised = s.initialised := rfl
@[simp] theorem countedError_crcAcc (c : Cause) (s : State) : (countedError c s).crcAcc = s.crcAcc := rfl
@[simp] theorem countedError_stats (c : Cause) (s : State) : (countedError c s).stats = s.stats.addRxError s.cfg := rfl
@[simp] theorem countedError_response (c : Cause) (s : State) : (countedError c s).response = s.response := rfl
@[simp] theorem countedError_trace (c : Cause) (s : State) : (countedError c s).trace = s.trace := rfl
@[simp] theorem countedError_causes (c : Cause) (s : State) : (countedError c s).causes = s.causes ++ [c] := rfl
@[simp] theorem countedError_freeDraws (c : Cause) (s : State) : (countedError c s).freeDraws = s.freeDraws := rfl
@[simp] theorem countedError_inputs (c : Cause) (s : State) : (countedError c s).inputs = s.inputs := rfl
@[simp] theorem countedError_env (c : Cause) (s : State) : (countedError c s).env = s.env := rfl

/-! The fields after `resync(cause)` (R305). -/

@[simp] theorem resync_cfg (c : Cause) (s : State) : (resync c s).cfg = s.cfg := rfl
@[simp] theorem resync_rxState (c : Cause) (s : State) : (resync c s).rxState = .sync := rfl
@[simp] theorem resync_rx (c : Cause) (s : State) : (resync c s).rx = s.rx := rfl
@[simp] theorem resync_rxBuf (c : Cause) (s : State) : (resync c s).rxBuf = s.rxBuf := rfl
@[simp] theorem resync_txBuf (c : Cause) (s : State) : (resync c s).txBuf = s.txBuf := rfl
@[simp] theorem resync_txLen (c : Cause) (s : State) : (resync c s).txLen = s.txLen := rfl
@[simp] theorem resync_mtu (c : Cause) (s : State) : (resync c s).mtu = s.mtu := rfl
@[simp] theorem resync_initialised (c : Cause) (s : State) : (resync c s).initialised = s.initialised := rfl
@[simp] theorem resync_crcAcc (c : Cause) (s : State) : (resync c s).crcAcc = s.crcAcc := rfl
@[simp] theorem resync_stats (c : Cause) (s : State) : (resync c s).stats = s.stats := rfl
@[simp] theorem resync_response (c : Cause) (s : State) : (resync c s).response = s.response := rfl
@[simp] theorem resync_trace (c : Cause) (s : State) : (resync c s).trace = s.trace := rfl
@[simp] theorem resync_causes (c : Cause) (s : State) : (resync c s).causes = s.causes ++ [c] := rfl
@[simp] theorem resync_freeDraws (c : Cause) (s : State) : (resync c s).freeDraws = s.freeDraws := rfl
@[simp] theorem resync_inputs (c : Cause) (s : State) : (resync c s).inputs = s.inputs := rfl
@[simp] theorem resync_env (c : Cause) (s : State) : (resync c s).env = s.env := rfl

/-! The fields after folding a byte into `rx_cs` (R23). -/

@[simp] theorem foldRxCs_cfg (b : Byte) (s : State) : (foldRxCs b s).cfg = s.cfg := rfl
@[simp] theorem foldRxCs_rxState (b : Byte) (s : State) : (foldRxCs b s).rxState = s.rxState := rfl
@[simp] theorem foldRxCs_rx (b : Byte) (s : State) : (foldRxCs b s).rx = { s.rx with cs := crc8Byte s.cfg.crcPoly s.rx.cs b } := rfl
@[simp] theorem foldRxCs_rxBuf (b : Byte) (s : State) : (foldRxCs b s).rxBuf = s.rxBuf := rfl
@[simp] theorem foldRxCs_txBuf (b : Byte) (s : State) : (foldRxCs b s).txBuf = s.txBuf := rfl
@[simp] theorem foldRxCs_txLen (b : Byte) (s : State) : (foldRxCs b s).txLen = s.txLen := rfl
@[simp] theorem foldRxCs_mtu (b : Byte) (s : State) : (foldRxCs b s).mtu = s.mtu := rfl
@[simp] theorem foldRxCs_initialised (b : Byte) (s : State) : (foldRxCs b s).initialised = s.initialised := rfl
@[simp] theorem foldRxCs_crcAcc (b : Byte) (s : State) : (foldRxCs b s).crcAcc = s.crcAcc := rfl
@[simp] theorem foldRxCs_stats (b : Byte) (s : State) : (foldRxCs b s).stats = s.stats := rfl
@[simp] theorem foldRxCs_response (b : Byte) (s : State) : (foldRxCs b s).response = s.response := rfl
@[simp] theorem foldRxCs_trace (b : Byte) (s : State) : (foldRxCs b s).trace = s.trace := rfl
@[simp] theorem foldRxCs_causes (b : Byte) (s : State) : (foldRxCs b s).causes = s.causes := rfl
@[simp] theorem foldRxCs_freeDraws (b : Byte) (s : State) : (foldRxCs b s).freeDraws = s.freeDraws := rfl
@[simp] theorem foldRxCs_inputs (b : Byte) (s : State) : (foldRxCs b s).inputs = s.inputs := rfl
@[simp] theorem foldRxCs_env (b : Byte) (s : State) : (foldRxCs b s).env = s.env := rfl

/-! The fields after `unpack` (R251). -/

@[simp] theorem unpack_cfg (objid : ObjId) (instid : Half) (payload : List Byte) (s : State) : (unpack objid instid payload s).cfg = s.cfg := rfl
@[simp] theorem unpack_rxState (objid : ObjId) (instid : Half) (payload : List Byte) (s : State) : (unpack objid instid payload s).rxState = s.rxState := rfl
@[simp] theorem unpack_rx (objid : ObjId) (instid : Half) (payload : List Byte) (s : State) : (unpack objid instid payload s).rx = s.rx := rfl
@[simp] theorem unpack_rxBuf (objid : ObjId) (instid : Half) (payload : List Byte) (s : State) : (unpack objid instid payload s).rxBuf = s.rxBuf := rfl
@[simp] theorem unpack_txBuf (objid : ObjId) (instid : Half) (payload : List Byte) (s : State) : (unpack objid instid payload s).txBuf = s.txBuf := rfl
@[simp] theorem unpack_txLen (objid : ObjId) (instid : Half) (payload : List Byte) (s : State) : (unpack objid instid payload s).txLen = s.txLen := rfl
@[simp] theorem unpack_mtu (objid : ObjId) (instid : Half) (payload : List Byte) (s : State) : (unpack objid instid payload s).mtu = s.mtu := rfl
@[simp] theorem unpack_initialised (objid : ObjId) (instid : Half) (payload : List Byte) (s : State) : (unpack objid instid payload s).initialised = s.initialised := rfl
@[simp] theorem unpack_crcAcc (objid : ObjId) (instid : Half) (payload : List Byte) (s : State) : (unpack objid instid payload s).crcAcc = s.crcAcc := rfl
@[simp] theorem unpack_stats (objid : ObjId) (instid : Half) (payload : List Byte) (s : State) : (unpack objid instid payload s).stats = s.stats := rfl
@[simp] theorem unpack_response (objid : ObjId) (instid : Half) (payload : List Byte) (s : State) : (unpack objid instid payload s).response = s.response := rfl
@[simp] theorem unpack_trace (objid : ObjId) (instid : Half) (payload : List Byte) (s : State) : (unpack objid instid payload s).trace = s.trace := rfl
@[simp] theorem unpack_causes (objid : ObjId) (instid : Half) (payload : List Byte) (s : State) : (unpack objid instid payload s).causes = s.causes := rfl
@[simp] theorem unpack_freeDraws (objid : ObjId) (instid : Half) (payload : List Byte) (s : State) : (unpack objid instid payload s).freeDraws = s.freeDraws := rfl
@[simp] theorem unpack_inputs (objid : ObjId) (instid : Half) (payload : List Byte) (s : State) : (unpack objid instid payload s).inputs = s.inputs := rfl
@[simp] theorem unpack_env (objid : ObjId) (instid : Half) (payload : List Byte) (s : State) : (unpack objid instid payload s).env = { s.env with store := writeStore s.env.store objid instid payload } := rfl

/-! The fields after writing `crc_acc` (R135, R136). -/

@[simp] theorem setCrcAcc_cfg (v : Byte) (s : State) : (setCrcAcc v s).cfg = s.cfg := rfl
@[simp] theorem setCrcAcc_rxState (v : Byte) (s : State) : (setCrcAcc v s).rxState = s.rxState := rfl
@[simp] theorem setCrcAcc_rx (v : Byte) (s : State) : (setCrcAcc v s).rx = s.rx := rfl
@[simp] theorem setCrcAcc_rxBuf (v : Byte) (s : State) : (setCrcAcc v s).rxBuf = s.rxBuf := rfl
@[simp] theorem setCrcAcc_txBuf (v : Byte) (s : State) : (setCrcAcc v s).txBuf = s.txBuf := rfl
@[simp] theorem setCrcAcc_txLen (v : Byte) (s : State) : (setCrcAcc v s).txLen = s.txLen := rfl
@[simp] theorem setCrcAcc_mtu (v : Byte) (s : State) : (setCrcAcc v s).mtu = s.mtu := rfl
@[simp] theorem setCrcAcc_initialised (v : Byte) (s : State) : (setCrcAcc v s).initialised = s.initialised := rfl
@[simp] theorem setCrcAcc_crcAcc (v : Byte) (s : State) : (setCrcAcc v s).crcAcc = v := rfl
@[simp] theorem setCrcAcc_stats (v : Byte) (s : State) : (setCrcAcc v s).stats = s.stats := rfl
@[simp] theorem setCrcAcc_response (v : Byte) (s : State) : (setCrcAcc v s).response = .crc v := rfl
@[simp] theorem setCrcAcc_trace (v : Byte) (s : State) : (setCrcAcc v s).trace = s.trace := rfl
@[simp] theorem setCrcAcc_causes (v : Byte) (s : State) : (setCrcAcc v s).causes = s.causes := rfl
@[simp] theorem setCrcAcc_freeDraws (v : Byte) (s : State) : (setCrcAcc v s).freeDraws = s.freeDraws := rfl
@[simp] theorem setCrcAcc_inputs (v : Byte) (s : State) : (setCrcAcc v s).inputs = s.inputs := rfl
@[simp] theorem setCrcAcc_env (v : Byte) (s : State) : (setCrcAcc v s).env = s.env := rfl

/-! The fields after a report of the host. -/

@[simp] theorem report_cfg (r : Report) (s : State) : (report r s).cfg = s.cfg := rfl
@[simp] theorem report_rxState (r : Report) (s : State) : (report r s).rxState = s.rxState := rfl
@[simp] theorem report_rx (r : Report) (s : State) : (report r s).rx = s.rx := rfl
@[simp] theorem report_rxBuf (r : Report) (s : State) : (report r s).rxBuf = s.rxBuf := rfl
@[simp] theorem report_txBuf (r : Report) (s : State) : (report r s).txBuf = s.txBuf := rfl
@[simp] theorem report_txLen (r : Report) (s : State) : (report r s).txLen = s.txLen := rfl
@[simp] theorem report_mtu (r : Report) (s : State) : (report r s).mtu = s.mtu := rfl
@[simp] theorem report_initialised (r : Report) (s : State) : (report r s).initialised = s.initialised := rfl
@[simp] theorem report_crcAcc (r : Report) (s : State) : (report r s).crcAcc = s.crcAcc := rfl
@[simp] theorem report_stats (r : Report) (s : State) : (report r s).stats = s.stats := rfl
@[simp] theorem report_response (r : Report) (s : State) : (report r s).response = s.response := rfl
@[simp] theorem report_trace (r : Report) (s : State) : (report r s).trace = s.trace := rfl
@[simp] theorem report_causes (r : Report) (s : State) : (report r s).causes = s.causes := rfl
@[simp] theorem report_freeDraws (r : Report) (s : State) : (report r s).freeDraws = s.freeDraws := rfl
@[simp] theorem report_inputs (r : Report) (s : State) : (report r s).inputs = s.inputs := rfl
@[simp] theorem report_env (r : Report) (s : State) : (report r s).env = { s.env with reports := s.env.reports ++ [r] } := rfl

/-! The fields after taking or freeing the transaction slot (R264). -/

@[simp] theorem setSlot_cfg (p : Option Slot) (s : State) : (setSlot p s).cfg = s.cfg := rfl
@[simp] theorem setSlot_rxState (p : Option Slot) (s : State) : (setSlot p s).rxState = s.rxState := rfl
@[simp] theorem setSlot_rx (p : Option Slot) (s : State) : (setSlot p s).rx = s.rx := rfl
@[simp] theorem setSlot_rxBuf (p : Option Slot) (s : State) : (setSlot p s).rxBuf = s.rxBuf := rfl
@[simp] theorem setSlot_txBuf (p : Option Slot) (s : State) : (setSlot p s).txBuf = s.txBuf := rfl
@[simp] theorem setSlot_txLen (p : Option Slot) (s : State) : (setSlot p s).txLen = s.txLen := rfl
@[simp] theorem setSlot_mtu (p : Option Slot) (s : State) : (setSlot p s).mtu = s.mtu := rfl
@[simp] theorem setSlot_initialised (p : Option Slot) (s : State) : (setSlot p s).initialised = s.initialised := rfl
@[simp] theorem setSlot_crcAcc (p : Option Slot) (s : State) : (setSlot p s).crcAcc = s.crcAcc := rfl
@[simp] theorem setSlot_stats (p : Option Slot) (s : State) : (setSlot p s).stats = s.stats := rfl
@[simp] theorem setSlot_response (p : Option Slot) (s : State) : (setSlot p s).response = s.response := rfl
@[simp] theorem setSlot_trace (p : Option Slot) (s : State) : (setSlot p s).trace = s.trace := rfl
@[simp] theorem setSlot_causes (p : Option Slot) (s : State) : (setSlot p s).causes = s.causes := rfl
@[simp] theorem setSlot_freeDraws (p : Option Slot) (s : State) : (setSlot p s).freeDraws = s.freeDraws := rfl
@[simp] theorem setSlot_inputs (p : Option Slot) (s : State) : (setSlot p s).inputs = s.inputs := rfl
@[simp] theorem setSlot_env (p : Option Slot) (s : State) : (setSlot p s).env = { s.env with slot := p } := rfl

/-! The fields after the end of a transaction (R264). -/

@[simp] theorem endTxn_cfg (r : Report) (s : State) : (endTxn r s).cfg = s.cfg := rfl
@[simp] theorem endTxn_rxState (r : Report) (s : State) : (endTxn r s).rxState = s.rxState := rfl
@[simp] theorem endTxn_rx (r : Report) (s : State) : (endTxn r s).rx = s.rx := rfl
@[simp] theorem endTxn_rxBuf (r : Report) (s : State) : (endTxn r s).rxBuf = s.rxBuf := rfl
@[simp] theorem endTxn_txBuf (r : Report) (s : State) : (endTxn r s).txBuf = s.txBuf := rfl
@[simp] theorem endTxn_txLen (r : Report) (s : State) : (endTxn r s).txLen = s.txLen := rfl
@[simp] theorem endTxn_mtu (r : Report) (s : State) : (endTxn r s).mtu = s.mtu := rfl
@[simp] theorem endTxn_initialised (r : Report) (s : State) : (endTxn r s).initialised = s.initialised := rfl
@[simp] theorem endTxn_crcAcc (r : Report) (s : State) : (endTxn r s).crcAcc = s.crcAcc := rfl
@[simp] theorem endTxn_stats (r : Report) (s : State) : (endTxn r s).stats = s.stats := rfl
@[simp] theorem endTxn_response (r : Report) (s : State) : (endTxn r s).response = s.response := rfl
@[simp] theorem endTxn_trace (r : Report) (s : State) : (endTxn r s).trace = s.trace := rfl
@[simp] theorem endTxn_causes (r : Report) (s : State) : (endTxn r s).causes = s.causes := rfl
@[simp] theorem endTxn_freeDraws (r : Report) (s : State) : (endTxn r s).freeDraws = s.freeDraws := rfl
@[simp] theorem endTxn_inputs (r : Report) (s : State) : (endTxn r s).inputs = s.inputs := rfl
@[simp] theorem endTxn_env (r : Report) (s : State) : (endTxn r s).env = { s.env.freeSlot with reports := s.env.reports ++ [r] } := rfl

/-! The fields after the begin of a task. -/

@[simp] theorem addTask_cfg (t : Task) (s : State) : (addTask t s).cfg = s.cfg := rfl
@[simp] theorem addTask_rxState (t : Task) (s : State) : (addTask t s).rxState = s.rxState := rfl
@[simp] theorem addTask_rx (t : Task) (s : State) : (addTask t s).rx = s.rx := rfl
@[simp] theorem addTask_rxBuf (t : Task) (s : State) : (addTask t s).rxBuf = s.rxBuf := rfl
@[simp] theorem addTask_txBuf (t : Task) (s : State) : (addTask t s).txBuf = s.txBuf := rfl
@[simp] theorem addTask_txLen (t : Task) (s : State) : (addTask t s).txLen = s.txLen := rfl
@[simp] theorem addTask_mtu (t : Task) (s : State) : (addTask t s).mtu = s.mtu := rfl
@[simp] theorem addTask_initialised (t : Task) (s : State) : (addTask t s).initialised = s.initialised := rfl
@[simp] theorem addTask_crcAcc (t : Task) (s : State) : (addTask t s).crcAcc = s.crcAcc := rfl
@[simp] theorem addTask_stats (t : Task) (s : State) : (addTask t s).stats = s.stats := rfl
@[simp] theorem addTask_response (t : Task) (s : State) : (addTask t s).response = s.response := rfl
@[simp] theorem addTask_trace (t : Task) (s : State) : (addTask t s).trace = s.trace := rfl
@[simp] theorem addTask_causes (t : Task) (s : State) : (addTask t s).causes = s.causes := rfl
@[simp] theorem addTask_freeDraws (t : Task) (s : State) : (addTask t s).freeDraws = s.freeDraws := rfl
@[simp] theorem addTask_inputs (t : Task) (s : State) : (addTask t s).inputs = s.inputs := rfl
@[simp] theorem addTask_env (t : Task) (s : State) : (addTask t s).env = { s.env with tasks := if t.isDone then s.env.tasks else s.env.tasks ++ [t] } := rfl

/-! The fields after a task going on or ending. -/

@[simp] theorem setTask_cfg (k : Nat) (t : Task) (s : State) : (setTask k t s).cfg = s.cfg := rfl
@[simp] theorem setTask_rxState (k : Nat) (t : Task) (s : State) : (setTask k t s).rxState = s.rxState := rfl
@[simp] theorem setTask_rx (k : Nat) (t : Task) (s : State) : (setTask k t s).rx = s.rx := rfl
@[simp] theorem setTask_rxBuf (k : Nat) (t : Task) (s : State) : (setTask k t s).rxBuf = s.rxBuf := rfl
@[simp] theorem setTask_txBuf (k : Nat) (t : Task) (s : State) : (setTask k t s).txBuf = s.txBuf := rfl
@[simp] theorem setTask_txLen (k : Nat) (t : Task) (s : State) : (setTask k t s).txLen = s.txLen := rfl
@[simp] theorem setTask_mtu (k : Nat) (t : Task) (s : State) : (setTask k t s).mtu = s.mtu := rfl
@[simp] theorem setTask_initialised (k : Nat) (t : Task) (s : State) : (setTask k t s).initialised = s.initialised := rfl
@[simp] theorem setTask_crcAcc (k : Nat) (t : Task) (s : State) : (setTask k t s).crcAcc = s.crcAcc := rfl
@[simp] theorem setTask_stats (k : Nat) (t : Task) (s : State) : (setTask k t s).stats = s.stats := rfl
@[simp] theorem setTask_response (k : Nat) (t : Task) (s : State) : (setTask k t s).response = s.response := rfl
@[simp] theorem setTask_trace (k : Nat) (t : Task) (s : State) : (setTask k t s).trace = s.trace := rfl
@[simp] theorem setTask_causes (k : Nat) (t : Task) (s : State) : (setTask k t s).causes = s.causes := rfl
@[simp] theorem setTask_freeDraws (k : Nat) (t : Task) (s : State) : (setTask k t s).freeDraws = s.freeDraws := rfl
@[simp] theorem setTask_inputs (k : Nat) (t : Task) (s : State) : (setTask k t s).inputs = s.inputs := rfl
@[simp] theorem setTask_env (k : Nat) (t : Task) (s : State) : (setTask k t s).env = { s.env with tasks := if t.isDone then s.env.tasks.eraseIdx k else s.env.tasks.set k t } := rfl

/-! The counters after `Stats.addRxByte`. -/

@[simp] theorem Stats.addRxByte_rxBytes (c : Config) (t : Stats) : (t.addRxByte c).rxBytes = ctrAdd c t.rxBytes 1 := rfl
@[simp] theorem Stats.addRxByte_rxObjects (c : Config) (t : Stats) : (t.addRxByte c).rxObjects = t.rxObjects := rfl
@[simp] theorem Stats.addRxByte_rxErrors (c : Config) (t : Stats) : (t.addRxByte c).rxErrors = t.rxErrors := rfl
@[simp] theorem Stats.addRxByte_txBytes (c : Config) (t : Stats) : (t.addRxByte c).txBytes = t.txBytes := rfl
@[simp] theorem Stats.addRxByte_txObjects (c : Config) (t : Stats) : (t.addRxByte c).txObjects = t.txObjects := rfl
@[simp] theorem Stats.addRxByte_txErrors (c : Config) (t : Stats) : (t.addRxByte c).txErrors = t.txErrors := rfl

/-! The counters after `Stats.addRxObject`. -/

@[simp] theorem Stats.addRxObject_rxBytes (c : Config) (t : Stats) : (t.addRxObject c).rxBytes = t.rxBytes := rfl
@[simp] theorem Stats.addRxObject_rxObjects (c : Config) (t : Stats) : (t.addRxObject c).rxObjects = ctrAdd c t.rxObjects 1 := rfl
@[simp] theorem Stats.addRxObject_rxErrors (c : Config) (t : Stats) : (t.addRxObject c).rxErrors = t.rxErrors := rfl
@[simp] theorem Stats.addRxObject_txBytes (c : Config) (t : Stats) : (t.addRxObject c).txBytes = t.txBytes := rfl
@[simp] theorem Stats.addRxObject_txObjects (c : Config) (t : Stats) : (t.addRxObject c).txObjects = t.txObjects := rfl
@[simp] theorem Stats.addRxObject_txErrors (c : Config) (t : Stats) : (t.addRxObject c).txErrors = t.txErrors := rfl

/-! The counters after `Stats.addRxError`. -/

@[simp] theorem Stats.addRxError_rxBytes (c : Config) (t : Stats) : (t.addRxError c).rxBytes = t.rxBytes := rfl
@[simp] theorem Stats.addRxError_rxObjects (c : Config) (t : Stats) : (t.addRxError c).rxObjects = t.rxObjects := rfl
@[simp] theorem Stats.addRxError_rxErrors (c : Config) (t : Stats) : (t.addRxError c).rxErrors = ctrAdd c t.rxErrors 1 := rfl
@[simp] theorem Stats.addRxError_txBytes (c : Config) (t : Stats) : (t.addRxError c).txBytes = t.txBytes := rfl
@[simp] theorem Stats.addRxError_txObjects (c : Config) (t : Stats) : (t.addRxError c).txObjects = t.txObjects := rfl
@[simp] theorem Stats.addRxError_txErrors (c : Config) (t : Stats) : (t.addRxError c).txErrors = t.txErrors := rfl

/-! The counters after `Stats.addTxError`. -/

@[simp] theorem Stats.addTxError_rxBytes (c : Config) (t : Stats) : (t.addTxError c).rxBytes = t.rxBytes := rfl
@[simp] theorem Stats.addTxError_rxObjects (c : Config) (t : Stats) : (t.addTxError c).rxObjects = t.rxObjects := rfl
@[simp] theorem Stats.addTxError_rxErrors (c : Config) (t : Stats) : (t.addTxError c).rxErrors = t.rxErrors := rfl
@[simp] theorem Stats.addTxError_txBytes (c : Config) (t : Stats) : (t.addTxError c).txBytes = t.txBytes := rfl
@[simp] theorem Stats.addTxError_txObjects (c : Config) (t : Stats) : (t.addTxError c).txObjects = t.txObjects := rfl
@[simp] theorem Stats.addTxError_txErrors (c : Config) (t : Stats) : (t.addTxError c).txErrors = ctrAdd c t.txErrors 1 := rfl

/-! The counters after `Stats.addTxFrame`. -/

@[simp] theorem Stats.addTxFrame_rxBytes (c : Config) (n : Nat) (t : Stats) : (t.addTxFrame c n).rxBytes = t.rxBytes := rfl
@[simp] theorem Stats.addTxFrame_rxObjects (c : Config) (n : Nat) (t : Stats) : (t.addTxFrame c n).rxObjects = t.rxObjects := rfl
@[simp] theorem Stats.addTxFrame_rxErrors (c : Config) (n : Nat) (t : Stats) : (t.addTxFrame c n).rxErrors = t.rxErrors := rfl
@[simp] theorem Stats.addTxFrame_txBytes (c : Config) (n : Nat) (t : Stats) : (t.addTxFrame c n).txBytes = ctrAdd c t.txBytes n := rfl
@[simp] theorem Stats.addTxFrame_txObjects (c : Config) (n : Nat) (t : Stats) : (t.addTxFrame c n).txObjects = ctrAdd c t.txObjects 1 := rfl
@[simp] theorem Stats.addTxFrame_txErrors (c : Config) (n : Nat) (t : Stats) : (t.addTxFrame c n).txErrors = t.txErrors := rfl

end Sys2Proof.Machine
end

