-- ==== Sys2Proof/Laws/Flags.lean ====
section
/-! SUPPORT. The decoder's tests as propositions, and which test of the header fails first. -/

namespace Sys2Proof.Machine

theorem versionOk_iff {c : Config} {b : Byte} : versionOk c b = true ↔ b &&& c.verMask = c.verVal := beq_iff_eq

theorem lenInRange_iff {c : Config} {len : Half} :
    lenInRange c len = true ↔ 8 ≤ len.toNat ∧ len.toNat ≤ 10 + c.maxPayload :=
  (Bool.and_eq_true_iff).trans (and_congr decide_eq_true_iff decide_eq_true_iff)

theorem payloadFits_iff {c : Config} {n : Nat} : payloadFits c n = true ↔ n ≤ c.maxPayload := decide_eq_true_iff

theorem lenConsistent_iff {count len : Half} {il pl : Nat} :
    lenConsistent count il pl len = true ↔ count.toNat + il + pl = len.toNat := beq_iff_eq

theorem countConsistent_iff {count len : Half} : countConsistent count len = true ↔ count.toNat = len.toNat + 1 :=
  beq_iff_eq

/-- Some kind has the code that a type byte's bits outside the mask hold. -/
theorem kindOf_isSome_iff {c : Config} {b : Byte} :
    (kindOf c b).isSome = true ↔ ∃ k, codeOf c k = b &&& ~~~c.verMask := by
  simp only [kindOf, List.find?_isSome, beq_iff_eq]
  constructor
  · rintro ⟨k, _, h⟩; exact ⟨k, h⟩
  · rintro ⟨k, h⟩; exact ⟨k, by cases k <;> simp, h⟩

/-- The kind read from a type byte has that byte's code. -/
theorem codeOf_of_kindOf {c : Config} {b : Byte} {k : Kind} (h : kindOf c b = some k) :
    codeOf c k = b &&& ~~~c.verMask := by
  simpa using List.find?_some h

/-- An unknown object that is not requested is the first test's failure. -/
theorem headerFault_unknown {c : Config} {kind : Option Kind} {count len : Half} (h : kind ≠ some .objReq) :
    headerFault c kind none count len = some .errUnknownObj := by
  simp [headerFault, h]

/-- A request about an unknown object has only the length to be tested. -/
theorem headerFault_request {c : Config} {count len : Half} :
    headerFault c (some .objReq) none count len = if count.toNat = len.toNat then none else some .errLenMismatch := by
  by_cases h : count.toNat = len.toNat <;>
    simp [headerFault, payLen, payloadFits, lenConsistent, instLen, h]

/-- A known object has the payload size and then the length to be tested. -/
theorem headerFault_known {c : Config} {kind : Option Kind} {e : ObjEntry} {count len : Half} :
    headerFault c kind (some e) count len =
      if payLen kind (some e) ≤ c.maxPayload then
        if count.toNat + instLen true e.single + payLen kind (some e) = len.toNat then none else some .errLenMismatch
      else some .errPayloadSize := by
  by_cases h : payLen kind (some e) ≤ c.maxPayload <;>
    by_cases h' : count.toNat + instLen true e.single + payLen kind (some e) = len.toNat <;>
      simp [headerFault, payloadFits, lenConsistent, h, h']

/-- What a header that passes every test satisfies. -/
theorem headerFault_eq_none {c : Config} {kind : Option Kind} {r : Option ObjEntry} {count len : Half}
    (h : headerFault c kind r count len = none) :
    (r = none → kind = some .objReq) ∧ payLen kind r ≤ c.maxPayload
      ∧ count.toNat + instLen r.isSome (r.any (·.single)) + payLen kind r = len.toNat := by
  unfold headerFault at h
  split at h
  · cases h
  · next h1 =>
    split at h
    · cases h
    · next h2 =>
      split at h
      · cases h
      · next h3 =>
        simp only [Bool.not_eq_true, Bool.not_eq_false'] at h2 h3
        refine ⟨fun hr => ?_, payloadFits_iff.1 h2, lenConsistent_iff.1 h3⟩
        simpa [hr] using h1

end Sys2Proof.Machine
end

