-- ==== Sys2Proof/Laws/Memory.lean ====
section
/-! SUPPORT. The buffers: read after write, the canonical form and the size that every write keeps. -/

namespace Sys2Proof.Machine

/-- Reading the index just written gives the byte. -/
@[simp] theorem Memory.read_write_self (m : Memory) (a : Nat) (b : Byte) : (m.write a b).read a = some b := by
  induction m with
  | nil => simp [Memory.write, Memory.read]
  | cons c m ih =>
    unfold Memory.write
    split
    · simp [Memory.read]
    · split
      · simp [Memory.read]
      · next h => simp [Memory.read, Ne.symm h, ih]

/-- A write leaves every other index alone. -/
theorem Memory.read_write_of_ne (m : Memory) {a a' : Nat} (b : Byte) (h : a' ≠ a) :
    (m.write a b).read a' = m.read a' := by
  induction m with
  | nil => simp [Memory.write, Memory.read, Ne.symm h]
  | cons c m ih =>
    unfold Memory.write
    split
    · simp [Memory.read, Ne.symm h]
    · split
      · next h1 h2 => simp [Memory.read, Ne.symm h, ← h2]
      · simp [Memory.read, ih]

/-- Every index a written buffer lists was listed or is the one written. -/
theorem Memory.mem_write {m : Memory} {a : Nat} {b : Byte} {c : Host.Cell} (h : c ∈ m.write a b) :
    c ∈ m ∨ c = (a, b) := by
  induction m with
  | nil => simpa [Memory.write] using h
  | cons d m ih =>
    unfold Memory.write at h
    split at h
    · rcases List.mem_cons.1 h with h | h
      · exact .inr h
      · exact .inl h
    · split at h
      · rcases List.mem_cons.1 h with h | h
        · exact .inr h
        · exact .inl (List.mem_cons_of_mem _ h)
      · rcases List.mem_cons.1 h with h | h
        · exact .inl (h ▸ List.mem_cons_self)
        · exact (ih h).imp_left (List.mem_cons_of_mem _)

/-- A write keeps the canonical form. -/
theorem Memory.wf_write {m : Memory} (h : m.wf) (a : Nat) (b : Byte) : (m.write a b).wf := by
  induction m with
  | nil => simp [Memory.write, Memory.wf]
  | cons c m ih =>
    obtain ⟨hc, hm⟩ := List.pairwise_cons.1 h
    unfold Memory.write
    split
    · next hlt =>
      refine List.pairwise_cons.2 ⟨fun d hd => ?_, h⟩
      rcases List.mem_cons.1 hd with rfl | hd
      · exact hlt
      · exact lt_trans hlt (hc d hd)
    · split
      · next _ heq => exact List.pairwise_cons.2 ⟨fun d hd => by simpa [heq] using hc d hd, hm⟩
      · next h1 h2 =>
        refine List.pairwise_cons.2 ⟨fun d hd => ?_, ih hm⟩
        rcases Memory.mem_write hd with hd | rfl
        · exact hc d hd
        · simp only; omega

/-- A write below the size keeps the buffer inside it. -/
theorem Memory.within_write {m : Memory} {n a : Nat} (h : m.within n) (ha : a < n) (b : Byte) :
    (m.write a b).within n := by
  refine ⟨Memory.wf_write h.1 a b, fun c hc => ?_⟩
  rcases Memory.mem_write hc with hc | rfl
  · exact h.2 c hc
  · exact ha

/-- Writing a list of bytes keeps the canonical form. -/
theorem Memory.wf_writeFrom {m : Memory} (h : m.wf) (a : Nat) (bs : List Byte) : (m.writeFrom a bs).wf := by
  induction bs generalizing m a with
  | nil => exact h
  | cons b bs ih => exact ih (Memory.wf_write h a b) (a + 1)

/-- Writing a list of bytes that ends below the size keeps the buffer inside it. -/
theorem Memory.within_writeFrom {m : Memory} {n a : Nat} {bs : List Byte} (h : m.within n)
    (ha : a + bs.length ≤ n) : (m.writeFrom a bs).within n := by
  induction bs generalizing m a with
  | nil => exact h
  | cons b bs ih =>
    simp only [List.length_cons] at ha
    exact ih (Memory.within_write h (by omega) b) (by omega)

/-- An empty buffer is in canonical form, inside any size. -/
theorem Memory.within_nil (n : Nat) : Memory.within [] n := ⟨List.Pairwise.nil, by simp⟩

/-- Reading a run of bytes depends only on those bytes. -/
theorem Memory.readFrom_congr {m m' : Memory} {a n : Nat}
    (h : ∀ i, a ≤ i → i < a + n → m.read i = m'.read i) : m.readFrom a n = m'.readFrom a n := by
  induction n generalizing a with
  | zero => rfl
  | succ n ih =>
    simp only [Memory.readFrom]
    rw [h a le_rfl (by omega), ih (fun i h1 h2 => h i (by omega) (by omega))]

/-- A run that is read has the length asked for. -/
theorem Memory.length_of_readFrom {m : Memory} {a n : Nat} {bs : List Byte} (h : m.readFrom a n = some bs) :
    bs.length = n := by
  induction n generalizing a bs with
  | zero => simp [Memory.readFrom] at h; simp [h]
  | succ n ih =>
    simp only [Memory.readFrom] at h
    split at h
    · next b bs' _ h2 => simp only [Option.some.injEq] at h; subst h; simp [ih h2]
    · cases h

/-- One more byte at the end of a run. -/
theorem Memory.readFrom_succ {m : Memory} {a n : Nat} {bs : List Byte} {b : Byte}
    (h : m.readFrom a n = some bs) (hb : m.read (a + n) = some b) : m.readFrom a (n + 1) = some (bs ++ [b]) := by
  induction n generalizing a bs with
  | zero =>
    simp only [Memory.readFrom, Option.some.injEq] at h
    simp only [Nat.add_zero] at hb
    simp [Memory.readFrom, hb, ← h]
  | succ n ih =>
    rw [Memory.readFrom] at h
    split at h
    · next b0 bs' h1 h2 =>
      simp only [Option.some.injEq] at h
      subst h
      have h3 := ih h2 (by rwa [show a + 1 + n = a + (n + 1) by omega])
      rw [Memory.readFrom, h1, h3]; rfl
    · cases h

/-- Appending one byte behind a run: the run and the byte read back. -/
theorem Memory.readFrom_write_succ {m : Memory} {n : Nat} {bs : List Byte} (b : Byte)
    (h : m.readFrom 0 n = some bs) : (m.write n b).readFrom 0 (n + 1) = some (bs ++ [b]) := by
  refine Memory.readFrom_succ ?_ (by simp)
  rw [← h]
  exact Memory.readFrom_congr fun i _ hi => Memory.read_write_of_ne m b (by omega)

end Sys2Proof.Machine
end

