-- ==== Sys2Proof/Laws/Outcome.lean ====
section
/-! SUPPORT. The two ways operations are put together: sequencing, and the guard before the first `INIT`. -/

namespace Sys2Proof.Machine

@[simp] theorem andThen_next (s : State) (k : State → Result) : andThen (.next s) k = k s := rfl

/-- A sequence that answers a next state ran its first part to one. -/
theorem andThen_eq_next {r : Result} {k : State → Result} {t : State} (h : andThen r k = .next t) :
    ∃ s, r = .next s ∧ k s = .next t := by
  cases r with
  | next s => exact ⟨s, rfl, h⟩
  | fault f => cases h
  | refused f => cases h

@[simp] theorem whenInitialised_of_true {s : State} (h : s.initialised = true) (run : State → Result) :
    whenInitialised s run = run s := by simp [whenInitialised, h]

@[simp] theorem whenInitialised_of_false {s : State} (h : s.initialised = false) (run : State → Result) :
    whenInitialised s run = .refused .beforeInit := by simp [whenInitialised, h]

/-- A guarded operation that answers a next state is an initialised instance's. -/
theorem whenInitialised_eq_next {s t : State} {run : State → Result} (h : whenInitialised s run = .next t) :
    s.initialised = true ∧ run s = .next t := by
  unfold whenInitialised at h
  split at h
  · next hi => exact ⟨hi, h⟩
  · cases h

end Sys2Proof.Machine
end

