-- ==== Sys2Proof/Laws/Decoder.lean ====
section
/-! SUPPORT. `RX.BYTE` state by state: which state function a byte meets and what the prologue has done before it; and what no
received byte writes. -/

namespace Sys2Proof.Machine

/-- The state after the prologue of a byte taken outside `SYNC`. -/
def counted (s : State) : State :=
  { s with
    response := .done
    stats := s.stats.addRxByte s.cfg
    rx := { s.rx with count := s.rx.count + 1 } }

/-- The state after the prologue of a byte taken in `SYNC`. -/
def countedInSync (s : State) : State := { s with response := .done, stats := s.stats.addRxByte s.cfg }

theorem prologue_of_sync {s : State} (h : s.rxState = .sync) : prologue (respond .done s) = countedInSync s :=
  if_pos h

theorem prologue_of_ne {s : State} (h : s.rxState ≠ .sync) : prologue (respond .done s) = counted s :=
  if_neg h

theorem rxTake_of_sync {s : State} (h : s.rxState = .sync) (b : Byte) :
    rxTake b s = .next (stateSync b (countedInSync s)) := by
  rw [rxTake, prologue_of_sync h]; simp only [rxDispatch, countedInSync, h]

theorem rxTake_of_type {s : State} (h : s.rxState = .type) (b : Byte) :
    rxTake b s = .next (stateType b (counted s)) := by
  rw [rxTake, prologue_of_ne (by simp [h])]; simp only [rxDispatch, counted, h]

theorem rxTake_of_size {s : State} (h : s.rxState = .size) (b : Byte) :
    rxTake b s = .next (stateSize b (counted s)) := by
  rw [rxTake, prologue_of_ne (by simp [h])]; simp only [rxDispatch, counted, h]

theorem rxTake_of_objid {s : State} (h : s.rxState = .objid) (b : Byte) :
    rxTake b s = .next (stateObjId b (counted s)) := by
  rw [rxTake, prologue_of_ne (by simp [h])]; simp only [rxDispatch, counted, h]

theorem rxTake_of_instid {s : State} (h : s.rxState = .instid) (b : Byte) :
    rxTake b s = .next (stateInstId b (counted s)) := by
  rw [rxTake, prologue_of_ne (by simp [h])]; simp only [rxDispatch, counted, h]

theorem rxTake_of_data {s : State} (h : s.rxState = .data) (b : Byte) :
    rxTake b s = stateData b (counted s) := by
  rw [rxTake, prologue_of_ne (by simp [h])]; simp only [rxDispatch, counted, h]

theorem rxTake_of_cs {s : State} (h : s.rxState = .cs) (b : Byte) :
    rxTake b s = stateCs b (counted s) := by
  rw [rxTake, prologue_of_ne (by simp [h])]; simp only [rxDispatch, counted, h]

/-- The byte after the last one of a two-byte field. -/
theorem fld_succ_eq_two {f : Half} : f + 1 = 2 ↔ f = 1 := by constructor <;> intro h <;> bv_omega

/-- The byte after the last one of the object id. -/
theorem fld_succ_eq_four {f : Half} : f + 1 = 4 ↔ f = 3 := by constructor <;> intro h <;> bv_omega

/-! Each state's work, one equation for each way it can go. -/

theorem stateSync_of_eq {s : State} {b : Byte} (h : b = s.cfg.syncVal) :
    stateSync b s = { s with
      rx := { s.rx with cs := crc8Byte s.cfg.crcPoly s.cfg.crcInit b, count := 1 }
      rxState := .type } :=
  if_pos h

theorem stateSync_of_ne {s : State} {b : Byte} (h : b ≠ s.cfg.syncVal) : stateSync b s = s := if_neg h

theorem stateType_version {s : State} {b : Byte} (h : versionOk s.cfg b = false) :
    stateType b s = resync .resyncVersion (foldRxCs b s) :=
  if_pos (by simpa [foldRxCs] using h)

theorem stateType_kind {s : State} {b : Byte} (h : versionOk s.cfg b = true) (hk : kindOf s.cfg b = none) :
    stateType b s = resync .resyncKind (foldRxCs b s) :=
  (if_neg (by simpa [foldRxCs] using h)).trans (if_pos (by simp [foldRxCs, hk]))

theorem stateType_accept {s : State} {b : Byte} {k : Kind} (h : versionOk s.cfg b = true)
    (hk : kindOf s.cfg b = some k) :
    stateType b s = { s with
      rx := { s.rx with cs := crc8Byte s.cfg.crcPoly s.rx.cs b, type := b, len := 0, fld := 0 }
      rxState := .size } :=
  (if_neg (by simpa [foldRxCs] using h)).trans (if_neg (by simp [foldRxCs, hk]))

/-- The registers after a byte of the length field. -/
def sizeRegs (b : Byte) (s : State) : RxRegs :=
  { s.rx with
    cs := crc8Byte s.cfg.crcPoly s.rx.cs b
    len := putByte16 s.rx.len b s.rx.fld
    fld := s.rx.fld + 1 }

theorem stateSize_more {s : State} {b : Byte} (h : s.rx.fld ≠ 1) : stateSize b s = { s with rx := sizeRegs b s } :=
  if_neg (fun h' => h (fld_succ_eq_two.1 h'))

theorem stateSize_range {s : State} {b : Byte} (h : s.rx.fld = 1)
    (hr : lenInRange s.cfg (putByte16 s.rx.len b s.rx.fld) = false) :
    stateSize b s = countedError .errLenRange { s with rx := sizeRegs b s } :=
  (if_pos (fld_succ_eq_two.2 h)).trans (if_pos (by simpa [foldRxCs] using hr))

theorem stateSize_accept {s : State} {b : Byte} (h : s.rx.fld = 1)
    (hr : lenInRange s.cfg (putByte16 s.rx.len b s.rx.fld) = true) :
    stateSize b s = { s with rx := { sizeRegs b s with fld := 0, objid := 0 }, rxState := .objid } :=
  (if_pos (fld_succ_eq_two.2 h)).trans (if_neg (by simpa [foldRxCs] using hr))

/-- The registers after a byte of the object id. -/
def objIdRegs (b : Byte) (s : State) : RxRegs :=
  { s.rx with
    cs := crc8Byte s.cfg.crcPoly s.rx.cs b
    objid := putByte32 s.rx.objid b s.rx.fld
    fld := s.rx.fld + 1 }

theorem stateObjId_more {s : State} {b : Byte} (h : s.rx.fld ≠ 3) : stateObjId b s = { s with rx := objIdRegs b s } :=
  if_neg (fun h' => h (fld_succ_eq_four.1 h'))

theorem stateObjId_last {s : State} {b : Byte} (h : s.rx.fld = 3) :
    stateObjId b s = objidComplete { s with rx := objIdRegs b s } :=
  if_pos (fld_succ_eq_four.2 h)

theorem objidComplete_fault {s : State} {cause : Cause}
    (h : headerFault s.cfg (rxKind s) (objLookup s s.rx.objid) s.rx.count s.rx.len = some cause) :
    objidComplete s = countedError cause (latchLookup (objLookup s s.rx.objid) s) := by
  simp only [objidComplete, h]

/-- A request about an unknown object goes on to its checksum. -/
theorem objidComplete_unknown {s : State} (hl : objLookup s s.rx.objid = none) (hk : rxKind s = some .objReq)
    (h : headerFault s.cfg (some .objReq) none s.rx.count s.rx.len = none) :
    objidComplete s = { s with
      rx := { s.rx with found := false, paylen := 0, instid := 0, fld := 0 }
      rxState := .cs } := by
  have hk' : rxKind { s with rx := { s.rx with found := false } } = some .objReq := hk
  simp only [objidComplete, hl, hk, h, latchLookup, hk', payLen]
  rfl

/-- A frame about a known object goes on to the field after its id. -/
theorem objidComplete_known {s : State} {e : ObjEntry} (hl : objLookup s s.rx.objid = some e)
    (h : headerFault s.cfg (rxKind s) (some e) s.rx.count s.rx.len = none) :
    objidComplete s = { s with
      rx := { s.rx with
        found := true
        single := e.single
        paylen := BitVec.ofNat 16 (payLen (rxKind s) (some e))
        instid := 0
        fld := 0 }
      rxState := afterObjId true e.single (payLen (rxKind s) (some e)) } := by
  have hk : rxKind { s with rx := { s.rx with found := true, single := e.single } } = rxKind s := rfl
  simp only [objidComplete, hl, h, latchLookup, hk]
  rfl

/-- The registers after a byte of the instance id. -/
def instIdRegs (b : Byte) (s : State) : RxRegs :=
  { s.rx with
    cs := crc8Byte s.cfg.crcPoly s.rx.cs b
    instid := putByte16 s.rx.instid b s.rx.fld
    fld := s.rx.fld + 1 }

theorem stateInstId_more {s : State} {b : Byte} (h : s.rx.fld ≠ 1) :
    stateInstId b s = { s with rx := instIdRegs b s } :=
  if_neg (fun h' => h (fld_succ_eq_two.1 h'))

theorem stateInstId_last {s : State} {b : Byte} (h : s.rx.fld = 1) :
    stateInstId b s = { s with
      rx := { instIdRegs b s with fld := 0 }
      rxState := if 0 < s.rx.paylen.toNat then .data else .cs } :=
  if_pos (fld_succ_eq_two.2 h)

theorem stateData_outside {s : State} {b : Byte} (h : s.cfg.maxPayload ≤ s.rx.fld.toNat) :
    stateData b s = .fault .indexOutsideBuffer :=
  if_pos h

/-- The state after a payload byte that is not the last. -/
def payloadStored (b : Byte) (s : State) : State :=
  { s with
    rxBuf := s.rxBuf.write s.rx.fld.toNat b
    rx := { s.rx with cs := crc8Byte s.cfg.crcPoly s.rx.cs b, fld := s.rx.fld + 1 } }

theorem stateData_more {s : State} {b : Byte} (h : s.rx.fld.toNat < s.cfg.maxPayload)
    (hl : s.rx.fld + 1 ≠ s.rx.paylen) : stateData b s = .next (payloadStored b s) :=
  (if_neg (Nat.not_le.2 h)).trans (congrArg _ (if_neg hl))

theorem stateData_last {s : State} {b : Byte} (h : s.rx.fld.toNat < s.cfg.maxPayload)
    (hl : s.rx.fld + 1 = s.rx.paylen) : stateData b s = .next { payloadStored b s with rxState := .cs } :=
  (if_neg (Nat.not_le.2 h)).trans (congrArg _ (if_pos hl))

theorem stateCs_checksum {s : State} {b : Byte} (h : b ≠ s.rx.cs) :
    stateCs b s = .next (countedError .errChecksum s) :=
  if_pos h

theorem stateCs_count {s : State} {b : Byte} (h : b = s.rx.cs) (hc : countConsistent s.rx.count s.rx.len = false) :
    stateCs b s = .next (countedError .errCount s) :=
  (if_neg (not_not.2 h)).trans (if_pos (by simpa using hc))

theorem stateCs_match {s : State} {b : Byte} (h : b = s.rx.cs) (hc : countConsistent s.rx.count s.rx.len = true) :
    stateCs b s =
      match rxKind s with
      | none => .fault .noKindRecorded
      | some kind =>
        match s.rxBuf.readFrom 0 s.rx.paylen.toNat with
        | none => .fault .unwrittenByte
        | some payload => .next (deliverFrame kind payload s) :=
  (if_neg (not_not.2 h)).trans (if_neg (by simpa using hc))

theorem stateCs_deliver {s : State} {b : Byte} {k : Kind} {payload : List Byte} (h : b = s.rx.cs)
    (hc : countConsistent s.rx.count s.rx.len = true) (hk : rxKind s = some k)
    (hp : s.rxBuf.readFrom 0 s.rx.paylen.toNat = some payload) : stateCs b s = .next (deliverFrame k payload s) := by
  rw [stateCs_match h hc, hk]; simp only []; rw [hp]

/-- Taking one byte list after another is taking the two joined. -/
theorem rxTakeAll_append (xs ys : List Byte) (s : State) :
    rxTakeAll (xs ++ ys) s = andThen (rxTakeAll xs s) (rxTakeAll ys) := by
  induction xs generalizing s with
  | nil => rfl
  | cons x xs ih =>
    simp only [List.cons_append, rxTakeAll]
    cases rxTake x s with
    | next t => exact ih t
    | fault f => rfl
    | refused f => rfl

/-- A relation that is reflexive and transitive holds along a byte list if it holds along each byte. -/
theorem rxTakeAll_induct {R : State → State → Prop} (refl : ∀ s, R s s) (trans : ∀ s t u, R s t → R t u → R s u)
    (byte : ∀ b s t, rxTake b s = .next t → R s t) {bs : List Byte} {s t : State} (h : rxTakeAll bs s = .next t) :
    R s t := by
  induction bs generalizing s with
  | nil => exact Host.Outcome.next.inj h ▸ refl s
  | cons b bs ih =>
    obtain ⟨u, h1, h2⟩ := andThen_eq_next h
    exact trans _ _ _ (byte _ _ _ h1) (ih h2)

/-- An invariant that every byte keeps, and from which no byte stops, is kept by a byte list, which does not stop. -/
theorem rxTakeAll_total {P : State → Prop} (byte : ∀ b s, P s → ∃ t, rxTake b s = .next t ∧ P t) (bs : List Byte)
    {s : State} (h : P s) : ∃ t, rxTakeAll bs s = .next t ∧ P t := by
  induction bs generalizing s with
  | nil => exact ⟨s, rfl, h⟩
  | cons b bs ih =>
    obtain ⟨u, h1, h2⟩ := byte b s h
    obtain ⟨t, h3, h4⟩ := ih h2
    exact ⟨t, by rw [rxTakeAll, h1]; exact h3, h4⟩

end Sys2Proof.Machine
end

