-- ==== Sys2Proof/Laws/Encoder.lean ====
section
/-! SUPPORT. The encoder: the chunks, the bytes of a frame, and the three ways a transmission can go. -/

namespace Sys2Proof.Machine

/-- A counter stays a value of `CTR_W` bits. -/
theorem ctrAdd_lt (c : Config) (a b : Nat) : ctrAdd c a b < 2 ^ c.ctrW := Nat.mod_lt _ (Nat.two_pow_pos _)

/-- Two additions on a counter are one. -/
theorem ctrAdd_ctrAdd (c : Config) (a m n : Nat) : ctrAdd c (ctrAdd c a m) n = ctrAdd c a (m + n) := by
  simp only [ctrAdd, Nat.mod_add_mod, Nat.add_assoc]

/-- The checksum of a byte after a block is the checksum of the longer block. -/
theorem crc8Block_snoc (poly c : Byte) (xs : List Byte) (b : Byte) :
    crc8Block poly c (xs ++ [b]) = crc8Byte poly (crc8Block poly c xs) b := by
  induction xs generalizing c with
  | nil => rfl
  | cons x xs ih => exact ih _

theorem length_frameBody (c : Config) (k : Kind) (objid : ObjId) (inst : Option Half) (payload : List Byte) :
    (frameBody c k objid inst payload).length = declaredLen inst payload := by
  cases inst <;> simp [frameBody, declaredLen, instField, le16, le32, minHeader, maxHeader, Nat.add_comm] <;> omega

theorem length_frameBytes (c : Config) (k : Kind) (objid : ObjId) (inst : Option Half) (payload : List Byte) :
    (frameBytes c k objid inst payload).length = declaredLen inst payload + 1 := by
  simp [frameBytes, length_frameBody]

/-- The declared length of a frame whose payload fits is at most `MAX_HEADER + MAX_PAYLOAD`. -/
theorem declaredLen_le {c : Config} {inst : Option Half} {payload : List Byte} (h : payload.length ≤ c.maxPayload) :
    declaredLen inst payload ≤ 10 + c.maxPayload := by
  cases inst <;> simp [declaredLen, minHeader, maxHeader] <;> omega

/-- The chunks joined are the frame. -/
theorem flatten_chunksOf {fuel mtu : Nat} {bs : List Byte} (hm : mtu ≠ 0) (h : bs.length ≤ fuel) :
    (chunksOf fuel mtu bs).flatten = bs := by
  induction fuel generalizing bs with
  | zero => simp_all [chunksOf]
  | succ n ih =>
    cases bs with
    | nil => rfl
    | cons b bs =>
      simp only [chunksOf, List.flatten_cons]
      rw [ih (by simp only [List.length_drop]; omega), List.take_append_drop]

/-- Writing a list leaves every index before it alone. -/
theorem Memory.read_writeFrom_of_lt {m : Memory} {a i : Nat} {bs : List Byte} (h : i < a) :
    (m.writeFrom a bs).read i = m.read i := by
  induction bs generalizing m a with
  | nil => rfl
  | cons b bs ih => rw [Memory.writeFrom, ih (by omega), Memory.read_write_of_ne _ _ (by omega)]

/-- Writing a list leaves every index behind it alone. -/
theorem Memory.read_writeFrom_of_ge {m : Memory} {a i : Nat} {bs : List Byte} (h : a + bs.length ≤ i) :
    (m.writeFrom a bs).read i = m.read i := by
  induction bs generalizing m a with
  | nil => rfl
  | cons b bs ih =>
    simp only [List.length_cons] at h
    rw [Memory.writeFrom, ih (by omega), Memory.read_write_of_ne _ _ (by omega)]

/-- The bytes written read back. -/
theorem Memory.readFrom_writeFrom (m : Memory) (a : Nat) (bs : List Byte) :
    (m.writeFrom a bs).readFrom a bs.length = some bs := by
  induction bs generalizing m a with
  | nil => rfl
  | cons b bs ih =>
    simp only [Memory.writeFrom, List.length_cons, Memory.readFrom]
    rw [ih, Memory.read_writeFrom_of_lt (by omega), Memory.read_write_self]

/-- The state after a frame has been transmitted. -/
def transmitted (frame : List Byte) (s : State) : State :=
  { s with
    txBuf := s.txBuf.writeFrom 0 frame
    txLen := BitVec.ofNat 16 frame.length
    trace := s.trace ++ (chunksOf frame.length s.mtu.toNat frame).map Event.sink
    stats := s.stats.addTxFrame s.cfg (BitVec.ofNat 16 frame.length).toNat
    response := .ok }

theorem transmit_reject {s : State} {k : Kind} {objid : ObjId} {inst : Option Half} {payload : List Byte}
    (h : s.cfg.maxPayload < payload.length) :
    transmit k objid inst payload s = .next { s with response := .fail, stats := s.stats.addTxError s.cfg } :=
  if_pos (by simpa [payloadFits] using h)

theorem transmit_zeroMtu {s : State} {k : Kind} {objid : ObjId} {inst : Option Half} {payload : List Byte}
    (h : payload.length ≤ s.cfg.maxPayload) (hm : s.mtu = 0) :
    transmit k objid inst payload s = .fault .zeroChunkSize :=
  (if_neg (by simpa [payloadFits] using h)).trans (if_pos hm)

theorem transmit_accept {s : State} {k : Kind} {objid : ObjId} {inst : Option Half} {payload : List Byte}
    (h : payload.length ≤ s.cfg.maxPayload) (hm : s.mtu ≠ 0) :
    transmit k objid inst payload s = .next (transmitted (frameBytes s.cfg k objid inst payload) s) :=
  (if_neg (by simpa [payloadFits] using h)).trans (if_neg hm)

/-- Everything a transmission that answers a next state can have done. -/
theorem transmit_eq_next {s t : State} {k : Kind} {objid : ObjId} {inst : Option Half} {payload : List Byte}
    (h : transmit k objid inst payload s = .next t) :
    (s.cfg.maxPayload < payload.length ∧ t = { s with response := .fail, stats := s.stats.addTxError s.cfg })
      ∨ (payload.length ≤ s.cfg.maxPayload ∧ s.mtu ≠ 0 ∧ t = transmitted (frameBytes s.cfg k objid inst payload) s) := by
  rcases Nat.lt_or_ge s.cfg.maxPayload payload.length with hp | hp
  · rw [transmit_reject hp] at h
    exact .inl ⟨hp, (Host.Outcome.next.inj h).symm⟩
  · by_cases hm : s.mtu = 0
    · rw [transmit_zeroMtu hp hm] at h; cases h
    · rw [transmit_accept hp hm] at h
      exact .inr ⟨hp, hm, (Host.Outcome.next.inj h).symm⟩

end Sys2Proof.Machine
end

