-- ==== Sys2Proof/Laws/Encoding.lean ====
section
/-! SUPPORT. Bytes of a number and back, and taking a run of bytes off a byte list. -/

namespace Sys2Proof

@[simp] theorem length_bytesOfNat (n v : Nat) : (bytesOfNat n v).length = n := by
  induction n generalizing v with
  | zero => rfl
  | succ n ih => simp [bytesOfNat, ih]

/-- A number that fits comes back from its bytes. -/
theorem natOfBytes_bytesOfNat {n v : Nat} (h : v < 256 ^ n) : natOfBytes (bytesOfNat n v) = v := by
  induction n generalizing v with
  | zero => simp only [pow_zero, Nat.lt_one_iff] at h; simp [bytesOfNat, natOfBytes, h]
  | succ n ih =>
    have h' : v / 256 < 256 ^ n := by
      rw [Nat.div_lt_iff_lt_mul (by omega)]; rwa [pow_succ] at h
    simp only [bytesOfNat, natOfBytes, ih h', BitVec.toNat_ofNat]
    omega

theorem natOfBytes_lt (bs : List Byte) : natOfBytes bs < 256 ^ bs.length := by
  induction bs with
  | nil => simp [natOfBytes]
  | cons b bs ih =>
    have := b.isLt
    simp only [natOfBytes, List.length_cons, pow_succ]
    omega

/-- Taking as many bytes as a prefix has gives the prefix. -/
theorem takeBytes_append (xs ys : List Byte) {n : Nat} (h : xs.length = n) : takeBytes n (xs ++ ys) = some (xs, ys) := by
  induction xs generalizing n with
  | nil => subst h; rfl
  | cons x xs ih =>
    subst h
    simp only [List.cons_append, List.length_cons, takeBytes, ih rfl]
    rfl

/-- What is taken and what is left make up the list, and as many bytes as asked for are taken. -/
theorem takeBytes_eq_some {n : Nat} {bs xs ys : List Byte} (h : takeBytes n bs = some (xs, ys)) :
    bs = xs ++ ys ∧ xs.length = n := by
  induction n generalizing bs xs ys with
  | zero => simp only [takeBytes, Option.some.injEq, Prod.mk.injEq] at h; simp [← h.1, ← h.2]
  | succ n ih =>
    cases bs with
    | nil => simp [takeBytes] at h
    | cons b bs =>
      simp only [takeBytes, Option.map_eq_some_iff, Prod.mk.injEq, Prod.exists] at h
      obtain ⟨us, vs, h1, rfl, rfl⟩ := h
      obtain ⟨rfl, h3⟩ := ih h1
      exact ⟨rfl, by simp [h3]⟩

/-- A row is read back from its own word. -/
@[simp] theorem Op.ofWord_word (o : Op) : Op.ofWord o.word = some o := by cases o <;> rfl

/-- The row found has that word. -/
theorem Op.word_of_ofWord {b : Byte} {o : Op} (h : Op.ofWord b = some o) : o.word = b := by
  simpa using List.find?_some h

/-- The row of a built instruction is the row it was built for. -/
@[simp] theorem Op.op_build (o : Op) (a : Operands) : (o.build a).op = o := by cases o <;> rfl

/-- Format `S` reads back what it writes. -/
theorem parseCounted_countedBytes {bytes : List Byte} (h : bytes.length < 65536) (rest : List Byte) :
    parseCounted (countedBytes bytes ++ rest) = .ok (bytes, rest) := by
  have h2 : takeBytes 2 (countedBytes bytes ++ rest) = some (bytesOfNat 2 bytes.length, bytes ++ rest) := by
    rw [countedBytes, List.append_assoc]; exact takeBytes_append _ _ (length_bytesOfNat _ _)
  have h3 : natOfBytes (bytesOfNat 2 bytes.length) = bytes.length := natOfBytes_bytesOfNat (by omega)
  simp only [parseCounted, h2, h3, takeBytes_append bytes rest rfl]

end Sys2Proof
end

