-- ==== Sys2Proof/Laws/Host.lean ====
section
/-! SUPPORT. The host around the block: reading a value back after `unpack`, what a frame seen does to the transaction slot,
packing and issuing, the live instances, and which input is next. -/

namespace Sys2Proof.Machine

@[simp] theorem length_exactly (n : Nat) (bytes : List Byte) : (exactly n bytes).length = n := by simp [exactly]

/-- Bytes that are enough are taken as they are. -/
theorem exactly_append_of_length {n : Nat} {bytes : List Byte} (h : bytes.length = n) (more : List Byte) :
    exactly n (bytes ++ more) = bytes := by
  subst h
  simp [exactly, List.append_assoc]

theorem exactly_of_length {n : Nat} {bytes : List Byte} (h : bytes.length = n) : exactly n bytes = bytes := by
  simpa using exactly_append_of_length h []

@[simp] theorem pack_none (s : State) (objid : ObjId) (instid : Half) : pack s none objid instid = none := rfl

/-- A `pack` that succeeds gives exactly `size_of(id)` bytes: the current value where there is one of that size. -/
theorem pack_some {s : State} {objid : ObjId} {e : ObjEntry} (h : objLookup s objid = some e) (bytes : List Byte)
    (instid : Half) :
    ∃ v, pack s (some bytes) objid instid = some v ∧ v.length = e.size.toNat
      ∧ (∀ w, instanceValue s objid instid = some w → w.length = e.size.toNat → v = w)
      ∧ (instanceValue s objid instid = none → bytes.length = e.size.toNat → v = bytes) := by
  simp only [pack, h]
  split
  · next hv => exact ⟨_, rfl, length_exactly _ _, fun w hw => by simp [hv] at hw, fun _ hb => exactly_of_length hb⟩
  · next value hv =>
    split
    · next hl => exact ⟨_, rfl, hl, fun w hw _ => by simpa [hv] using hw, fun hn => by simp [hv] at hn⟩
    · next hl =>
      exact ⟨_, rfl, length_exactly _ _, fun w hw hwl => absurd (by simp [hv] at hw; rw [hw]; exact hwl) hl,
        fun hn => by simp [hv] at hn⟩

@[simp] theorem unpackedValue_none (s : State) (objid : ObjId) (payload : List Byte) :
    unpackedValue s none objid payload = none := rfl

/-- An `unpack` that succeeds stores exactly `size_of(id)` bytes: the payload where it has that size. -/
theorem unpackedValue_some {s : State} {objid : ObjId} {e : ObjEntry} (h : objLookup s objid = some e)
    (bytes payload : List Byte) :
    ∃ v, unpackedValue s (some bytes) objid payload = some v ∧ v.length = e.size.toNat
      ∧ (payload.length = e.size.toNat → v = payload) := by
  simp only [unpackedValue, h]
  exact ⟨_, rfl, length_exactly _ _, fun hl => exactly_append_of_length hl _⟩

theorem isSome_unpackedValue (s : State) (draw : Draw) (objid : ObjId) (payload : List Byte) :
    (unpackedValue s draw objid payload).isSome = draw.isSome := by
  unfold unpackedValue
  split
  · rfl
  · split <;> rfl

/-- The value just unpacked is the instance's value. -/
theorem instanceValue_unpack_self (objid : ObjId) (instid : Half) (value : List Byte) (s : State) :
    instanceValue (unpack objid instid value s) objid instid = some value := by
  show ((writeStore s.env.store objid instid value).find? _).map _ = _
  induction s.env.store with
  | nil => simp [writeStore]
  | cons a l ih =>
    simp only [writeStore]
    split
    · simp
    · next h => rw [List.find?_cons_of_neg (by simpa using h)]; exact ih

/-- Unpacking one instance leaves every other alone. -/
theorem instanceValue_unpack_of_ne {objid o : ObjId} {instid i : Half} (value : List Byte) (s : State)
    (h : ¬ (objid = o ∧ instid = i)) : instanceValue (unpack objid instid value s) o i = instanceValue s o i := by
  show ((writeStore s.env.store objid instid value).find? _).map _ = (s.env.store.find? _).map _
  induction s.env.store with
  | nil => simpa [writeStore] using h
  | cons a l ih =>
    simp only [writeStore]
    split
    · next ha =>
      rw [List.find?_cons_of_neg (by simpa using h), List.find?_cons_of_neg (by simpa [ha.1, ha.2] using h)]
    · simp only [List.find?_cons]
      split
      · rfl
      · exact ih

/-- Seeing a frame changes the completion signal of the slot only. -/
theorem resolveTxn_eq (d : Deliver) (s : State) : ∃ slot, resolveTxn d s = setSlot slot s := by
  unfold resolveTxn
  split
  · exact ⟨s.env.slot, rfl⟩
  · split
    · exact ⟨_, rfl⟩
    · exact ⟨s.env.slot, rfl⟩

/-- A frame that resolves the pending transaction gives its completion signal. -/
theorem resolveTxn_of_resolves {s : State} {d : Deliver} {p : Slot} (hp : s.env.slot = some p)
    (h : resolves s.cfg p.awaited d = true) : resolveTxn d s = setSlot (some { p with signal := true }) s := by
  simp only [resolveTxn, hp, h, if_true]

/-- A frame that resolves no pending transaction changes nothing. -/
theorem resolveTxn_of_not {s : State} {d : Deliver}
    (h : ∀ p, s.env.slot = some p → resolves s.cfg p.awaited d = false) : resolveTxn d s = s := by
  unfold resolveTxn
  split
  · rfl
  · next p hp => simp [h p hp]

/-! The tasks. -/

/-- What was left before a task began is left when it has ended. -/
theorem eraseIdx_append_length (l : List Task) (t : Task) : (l ++ [t]).eraseIdx l.length = l := by
  simp [List.eraseIdx_append_of_length_le]

theorem getElem?_append_length (l : List Task) (t : Task) : (l ++ [t])[l.length]? = some t := by simp

/-- A task that waits for another instance to be packed goes on with it formed. -/
theorem packNext_of_pack {s : State} {k : Nat} {t : Task} {i : Half} {rest : List Half} {draw : Draw} {v : List Byte}
    (ht : s.env.tasks[k]? = some t) (hr : t.ready = none) (ho : t.todo = i :: rest)
    (hp : pack s draw t.objid i = some v) :
    packNext k draw s
      = setTask k
          { t with
            todo := rest
            ready := some
              { kind := t.role.kind, objid := t.objid, about := i, inst := instOperand s t.objid i, payload := v } }
          s := by
  simp only [packNext, ht, hr, ho, hp]

theorem packNext_of_fail {s : State} {k : Nat} {t : Task} {i : Half} {rest : List Half} {draw : Draw}
    (ht : s.env.tasks[k]? = some t) (hr : t.ready = none) (ho : t.todo = i :: rest)
    (hp : pack s draw t.objid i = none) : packNext k draw s = packFailed k { t with todo := rest } i s := by
  simp only [packNext, ht, hr, ho, hp]

theorem issueNext_of_ready {s : State} {k : Nat} {t : Task} {op : TxOp} (ht : s.env.tasks[k]? = some t)
    (hr : t.ready = some op) :
    issueNext k s = andThen (issueOp op s) fun u => .next (issued k { t with ready := none } op u) := by
  simp only [issueNext, ht, hr]

/-- Issuing an operation is transmitting its frame. -/
theorem issueOp_eq {s : State} (h : s.initialised = true) (op : TxOp) :
    issueOp op s = transmit op.kind op.objid op.inst op.payload s := by
  unfold issueOp
  split <;> (next hk => rw [hk]; exact whenInitialised_of_true h _)

/-! Object Dispatch. -/

theorem replying_eq_false_iff (s : State) : replying s = false ↔ ∀ t ∈ s.env.tasks, t.role ≠ .reply := by
  have h : ∀ t : Task, t.isReply = false ↔ t.role ≠ .reply := fun t => by unfold Task.isReply; split <;> simp_all
  simp [replying, h]

/-- What Object Dispatch does when it can take the next `Deliver` event. -/
theorem dispatchNext_of_deliver {s : State} {d : Deliver} (hr : replying s = false) (h : nextDeliver s = some d)
    (draw : Draw) :
    dispatchNext draw s
      = dispatchDeliver d draw { s with env := { s.env with dispatched := s.env.dispatched + 1 } } := by
  simp [dispatchNext, hr, h]

/-! What a move of the host can do: change the host's own part, and for `issue` one operation of the block before that. -/

/-- `t` is `s` but for the host's part. -/
def hostOnly (s t : State) : Prop := ∃ env, t = { s with env := env }

theorem hostOnly.refl (s : State) : hostOnly s s := ⟨s.env, rfl⟩

theorem hostOnly.trans {s t u : State} (h : hostOnly s t) (h' : hostOnly t u) : hostOnly s u := by
  obtain ⟨e, rfl⟩ := h
  obtain ⟨e', rfl⟩ := h'
  exact ⟨e', rfl⟩

theorem hostOnly_report (r : Report) (s : State) : hostOnly s (report r s) := ⟨_, rfl⟩
theorem hostOnly_setTask (k : Nat) (t : Task) (s : State) : hostOnly s (setTask k t s) := ⟨_, rfl⟩
theorem hostOnly_addTask (t : Task) (s : State) : hostOnly s (addTask t s) := ⟨_, rfl⟩
theorem hostOnly_setSlot (p : Option Slot) (s : State) : hostOnly s (setSlot p s) := ⟨_, rfl⟩
theorem hostOnly_endTxn (r : Report) (s : State) : hostOnly s (endTxn r s) := ⟨_, rfl⟩

theorem hostOnly_resolveTxn (d : Deliver) (s : State) : hostOnly s (resolveTxn d s) := by
  obtain ⟨slot, h⟩ := resolveTxn_eq d s
  exact h ▸ hostOnly_setSlot slot s

theorem hostOnly_takeUpdate (d : Deliver) (value : Option (List Byte)) (s : State) : hostOnly s (takeUpdate d value s) := by
  cases value with
  | none => exact hostOnly_resolveTxn d s
  | some v => exact hostOnly.trans ⟨_, rfl⟩ (hostOnly_resolveTxn d (unpack d.objid d.instid v s))

theorem hostOnly_dispatchDeliver (d : Deliver) (draw : Draw) (s : State) :
    hostOnly s (dispatchDeliver d draw s) := by
  unfold dispatchDeliver
  split
  · unfold dispatchObj
    split
    · exact hostOnly_report _ s
    · exact hostOnly_takeUpdate d _ s
  · unfold dispatchObjAck
    split
    · exact hostOnly_report _ s
    · dsimp only
      split
      · exact (hostOnly_takeUpdate d _ s).trans (hostOnly_addTask _ _)
      · exact hostOnly_takeUpdate d _ s
  · unfold dispatchObjReq
    split <;> exact hostOnly_addTask _ s
  · exact hostOnly.refl s
  · exact hostOnly_resolveTxn d s

theorem hostOnly_dispatchNext (draw : Draw) (s : State) : hostOnly s (dispatchNext draw s) := by
  unfold dispatchNext
  split
  · exact hostOnly.refl s
  · split
    · exact hostOnly.refl s
    · exact hostOnly.trans ⟨_, rfl⟩ (hostOnly_dispatchDeliver _ _ _)

theorem hostOnly_beginTxn (r : TxnRequest) (s : State) : hostOnly s (beginTxn r s) := by
  unfold beginTxn
  dsimp only
  split
  · exact (hostOnly_setSlot _ s).trans (hostOnly_addTask _ _)
  · split
    · exact hostOnly_report _ s
    · exact (hostOnly_setSlot _ s).trans (hostOnly_addTask _ _)

theorem hostOnly_packNext (k : Nat) (draw : Draw) (s : State) : hostOnly s (packNext k draw s) := by
  unfold packNext
  split
  · exact hostOnly.refl s
  · split
    · split
      · exact hostOnly_setTask _ _ s
      · unfold packFailed
        split
        · exact hostOnly_setTask _ _ s
        · exact (hostOnly_setTask _ _ s).trans (hostOnly_report _ _)
        · split
          · exact hostOnly_endTxn _ s
          · exact (hostOnly_setTask _ _ s).trans (hostOnly_report _ _)
        · exact hostOnly_setTask _ _ s
    · exact hostOnly.refl s
    · exact hostOnly.refl s

theorem hostOnly_issued (k : Nat) (t : Task) (op : TxOp) (s : State) : hostOnly s (issued k t op s) := by
  unfold issued txnIssued
  split
  · exact hostOnly_setTask _ _ s
  · exact (hostOnly_setTask _ _ s).trans (hostOnly_report _ _)
  · split
    · exact hostOnly_endTxn _ s
    · exact hostOnly_setTask _ _ s
  · split
    · exact hostOnly_endTxn _ s
    · exact hostOnly_setTask _ _ s

/-- Every move but `issue` answers a next state and changes the host's part only. -/
theorem hostMove_of_not_issue {m : Move} (hm : ∀ k, m ≠ .issue k) (s : State) :
    ∃ t, hostMove m s = .next t ∧ hostOnly s t := by
  cases m with
  | objectModel objects store => exact ⟨_, rfl, _, rfl⟩
  | connect =>
    refine ⟨_, rfl, ?_⟩
    unfold connect
    split
    · exact hostOnly.refl s
    · exact ⟨_, rfl⟩
  | dispatch draw => exact ⟨_, rfl, hostOnly_dispatchNext draw s⟩
  | send objid instid => exact ⟨_, rfl, hostOnly_addTask _ s⟩
  | startTxn r =>
    refine ⟨_, rfl, ?_⟩
    unfold startTxn
    split
    · exact hostOnly_beginTxn r s
    · exact ⟨_, rfl⟩
  | resume k =>
    refine ⟨_, rfl, ?_⟩
    unfold resumeTxn
    split
    · exact hostOnly.trans ⟨_, rfl⟩ (hostOnly_beginTxn _ _)
    · exact hostOnly.refl s
    · exact hostOnly.refl s
  | pack k draw => exact ⟨_, rfl, hostOnly_packNext k draw s⟩
  | issue k => exact absurd rfl (hm k)
  | wake =>
    refine ⟨_, rfl, ?_⟩
    unfold wakeTxn
    split
    · exact hostOnly.refl s
    · split
      · exact hostOnly_endTxn _ s
      · exact hostOnly.refl s
  | timeout =>
    refine ⟨_, rfl, ?_⟩
    unfold timeoutTxn
    split
    · exact hostOnly.refl s
    · split
      · exact hostOnly.refl s
      · exact hostOnly_endTxn _ s

/-- `issue` runs one operation of the block, if a task has one ready, and then changes the host's part only. -/
theorem hostMove_issue_cases (k : Nat) (s : State) :
    hostMove (.issue k) s = .next s
      ∨ ∃ (op : TxOp) (f : State → State), (∀ u, hostOnly u (f u))
        ∧ hostMove (.issue k) s = andThen (issueOp op s) fun u => .next (f u) := by
  show issueNext k s = _ ∨ ∃ (op : TxOp) (f : State → State), _ ∧ issueNext k s = _
  unfold issueNext
  split
  · exact .inl rfl
  · split
    · exact .inl rfl
    · exact .inr ⟨_, _, hostOnly_issued _ _ _, rfl⟩

/-! The live instances. -/

theorem mem_insertAscending {i j : Half} {l : List Half} : j ∈ insertAscending i l ↔ j = i ∨ j ∈ l := by
  induction l with
  | nil => simp [insertAscending]
  | cons a l ih =>
    unfold insertAscending
    split
    · simp
    · split
      · next h => subst h; simp
      · rw [List.mem_cons, ih, List.mem_cons, or_left_comm]

theorem pairwise_insertAscending {i : Half} {l : List Half} (h : l.Pairwise (· < ·)) :
    (insertAscending i l).Pairwise (· < ·) := by
  induction l with
  | nil => simp [insertAscending]
  | cons a l ih =>
    obtain ⟨h1, h2⟩ := List.pairwise_cons.1 h
    unfold insertAscending
    split
    · next hi =>
      exact List.pairwise_cons.2 ⟨fun b hb => (List.mem_cons.1 hb).elim (· ▸ hi) fun hb => BitVec.lt_trans hi (h1 b hb), h⟩
    · split
      · exact h
      · refine List.pairwise_cons.2 ⟨fun b hb => ?_, ih h2⟩
        rcases mem_insertAscending.1 hb with rfl | hb
        · bv_omega
        · exact h1 b hb

/-- The live instances come ascending, so each comes once. -/
theorem pairwise_liveInstances (s : State) (objid : ObjId) : (liveInstances s objid).Pairwise (· < ·) := by
  unfold liveInstances
  induction (s.env.store.filter (fun o => o.id == objid)).map StoredObject.instid with
  | nil => simp
  | cons a l ih => exact pairwise_insertAscending ih

/-- The live instances are those that hold a value. -/
theorem mem_liveInstances {s : State} {objid : ObjId} {i : Half} :
    i ∈ liveInstances s objid ↔ ∃ v, instanceValue s objid i = some v := by
  have h : ∀ l : List Half, i ∈ l.foldr insertAscending [] ↔ i ∈ l := fun l => by
    induction l with
    | nil => simp
    | cons a l ih => rw [List.foldr_cons, mem_insertAscending, ih, List.mem_cons]
  rw [liveInstances, h]
  simp only [instanceValue, Option.map_eq_some_iff, List.mem_map, List.mem_filter, beq_iff_eq]
  constructor
  · rintro ⟨o, ⟨hm, ho⟩, hi⟩
    obtain ⟨x, hx⟩ := Option.isSome_iff_exists.1
      (List.find?_isSome (p := fun o => o.id == objid && o.instid == i) |>.2 ⟨o, hm, by simp [ho, hi]⟩)
    exact ⟨_, x, hx, rfl⟩
  · rintro ⟨_, o, ho, rfl⟩
    have := List.find?_some ho
    simp only [Bool.and_eq_true, beq_iff_eq] at this
    exact ⟨o, ⟨List.mem_of_find?_eq_some ho, this.1⟩, this.2⟩

/-! The next input. -/

theorem takeInput_of_not_held {s : State} {j : Input} (h : inputHeld s j = false) (rest : List Input) :
    takeInput s (j :: rest) = some (j, rest) := by
  simp [takeInput, h]

/-- Inputs that wait are passed over and stay in their order. -/
theorem takeInput_append {s : State} {held : List Input} (h : ∀ j ∈ held, inputHeld s j = true) (l : List Input) :
    takeInput s (held ++ l) = (takeInput s l).map fun x => (x.1, held ++ x.2) := by
  induction held with
  | nil => simp
  | cons j held ih =>
    rw [List.cons_append, takeInput, if_pos (h j (by simp)), ih fun a ha => h a (by simp [ha])]
    cases takeInput s l <;> rfl

/-- Nothing waits while Object Dispatch has nothing to do. -/
theorem inputHeld_of_not_receiveHeld {s : State} (h : receiveHeld s = false) (j : Input) : inputHeld s j = false := by
  simp [inputHeld, h]

end Sys2Proof.Machine
end

