-- ==== Sys2Proof/Laws/PerInstr.lean ====
section
/-! SUPPORT. What holds of every instruction as syntax, one lemma a constructor: its encoding begins with its row's word, and
no other row has that word. -/

namespace Sys2Proof.Laws.HeadByte

/-- The first byte of an instruction's encoding is the word of its row, and names no other row. -/
def Statement (i : Instr) : Prop := (encode i).head? = some i.op.word ∧ Op.ofWord i.op.word = some i.op

theorem init (mtu : Half) : Statement (.init mtu) := ⟨rfl, rfl⟩
theorem rxByte (b : Byte) : Statement (.rxByte b) := ⟨rfl, rfl⟩
theorem crcInit : Statement .crcInit := ⟨rfl, rfl⟩
theorem crcUpd (b : Byte) : Statement (.crcUpd b) := ⟨rfl, rfl⟩
theorem crcBlk (bytes : List Byte) : Statement (.crcBlk bytes) := ⟨rfl, rfl⟩
theorem statGet : Statement .statGet := ⟨rfl, rfl⟩
theorem statReset : Statement .statReset := ⟨rfl, rfl⟩
theorem txObj (objid : ObjId) (inst : Option Half) (payload : List Byte) : Statement (.txObj objid inst payload) :=
  ⟨rfl, rfl⟩
theorem txObjReq (objid : ObjId) (inst : Option Half) (payload : List Byte) :
    Statement (.txObjReq objid inst payload) :=
  ⟨rfl, rfl⟩
theorem txObjAck (objid : ObjId) (inst : Option Half) (payload : List Byte) :
    Statement (.txObjAck objid inst payload) :=
  ⟨rfl, rfl⟩
theorem txAck (objid : ObjId) (inst : Option Half) (payload : List Byte) : Statement (.txAck objid inst payload) :=
  ⟨rfl, rfl⟩
theorem txNack (objid : ObjId) (inst : Option Half) (payload : List Byte) : Statement (.txNack objid inst payload) :=
  ⟨rfl, rfl⟩
theorem reservedOp7 : Statement .reservedOp7 := ⟨rfl, rfl⟩
theorem reservedOpD : Statement .reservedOpD := ⟨rfl, rfl⟩
theorem reservedOpE : Statement .reservedOpE := ⟨rfl, rfl⟩
theorem reservedOpF : Statement .reservedOpF := ⟨rfl, rfl⟩
theorem frameObj (objid : ObjId) (inst : Option Half) (payload : List Byte) :
    Statement (.frameObj objid inst payload) :=
  ⟨rfl, rfl⟩
theorem frameObjReq (objid : ObjId) (inst : Option Half) (payload : List Byte) :
    Statement (.frameObjReq objid inst payload) :=
  ⟨rfl, rfl⟩
theorem frameObjAck (objid : ObjId) (inst : Option Half) (payload : List Byte) :
    Statement (.frameObjAck objid inst payload) :=
  ⟨rfl, rfl⟩
theorem frameAck (objid : ObjId) (inst : Option Half) (payload : List Byte) :
    Statement (.frameAck objid inst payload) :=
  ⟨rfl, rfl⟩
theorem frameNack (objid : ObjId) (inst : Option Half) (payload : List Byte) :
    Statement (.frameNack objid inst payload) :=
  ⟨rfl, rfl⟩
theorem frameReservedKind5 : Statement .frameReservedKind5 := ⟨rfl, rfl⟩
theorem frameReservedKind6 : Statement .frameReservedKind6 := ⟨rfl, rfl⟩
theorem frameReservedKind7 : Statement .frameReservedKind7 := ⟨rfl, rfl⟩

end Sys2Proof.Laws.HeadByte
end

