-- ==== Sys2Proof/Tests/Slice0.lean ====
section
/-! SUPPORT. Tests. The expected results are those of `spec/95_test_vectors.md` (V<n>), or of the rule named at the test. At the
end, for every statement with hypotheses, a state and operands that meet them. -/

namespace Sys2Proof.Tests

set_option maxRecDepth 20000

open Sys2Proof.Machine Sys2Proof.Claims

/-! A small state to start from. -/

/-- The object model of `95_test_vectors.md`. -/
def testObjects : List ObjEntry :=
  [⟨0x1001, true, 4⟩, ⟨0x2002, false, 3⟩, ⟨0x3003, true, 0⟩, ⟨0x4004, true, 300⟩, ⟨0x5005, false, 255⟩]

/-- "Fresh" of `95_test_vectors.md`: just after `init 64`, with that object model. -/
def fresh : State :=
  { State.reset with mtu := 64, initialised := true, env := { Env.reset with objects := testObjects } }

/-- The fresh state in a state of the sequencer with given registers. -/
def inState (st : RxState) (rx : RxRegs) : State := { fresh with rxState := st, rx := rx }

/-- Something of the next state. -/
def view (f : State → α) : Result → Option α
  | .next s => some (f s)
  | .fault _ => none
  | .refused _ => none

/-- The counters in the order of `STAT.GET`. -/
def counters (s : State) : List Nat :=
  [s.stats.rxBytes, s.stats.rxObjects, s.stats.rxErrors, s.stats.txBytes, s.stats.txObjects, s.stats.txErrors]

/-- The registers after byte 0 of V1. -/
def afterSync : RxRegs := { RxRegs.reset with cs := 0xB4, count := 1 }

/-- The registers after byte 2 of V1. -/
def afterSize0 : RxRegs := { RxRegs.reset with cs := 0xBB, count := 3, fld := 1, type := 0x22, len := 0x0C }

/-- The registers after byte 6 of V1. -/
def afterObjId2 : RxRegs :=
  { RxRegs.reset with cs := 0x2E, count := 7, fld := 3, type := 0x22, len := 0x0C, objid := 0x1001 }

/-- The registers after byte 8 of V11. -/
def afterInstId0 : RxRegs :=
  { RxRegs.reset with
    cs := 0x80, count := 9, fld := 1, type := 0x20, len := 0x0D, objid := 0x2002, found := true, paylen := 3
    instid := 2 }

/-- The registers after byte 11 of V1. -/
def afterData3 : RxRegs :=
  { RxRegs.reset with
    cs := 0xD5, count := 12, fld := 4, type := 0x22, len := 0x0C, objid := 0x1001, found := true, single := true
    paylen := 4 }

/-- The state before the last byte of V1. -/
def beforeChecksum : State :=
  { inState .cs afterData3 with rxBuf := [(0, 0x01), (1, 0x02), (2, 0x03), (3, 0x04)] }

/-! WellFormed: one ill-formed term for each check. -/

/-- One byte more than the field `n` can count (R113). -/
def tooLong : List Byte := List.replicate 65536 0

theorem countFits_tooLong : countFits tooLong = false :=
  decide_eq_false (by rw [tooLong, List.length_replicate]; decide)

/-- As many bytes as the field `n` can count (R113). -/
def longest : List Byte := List.replicate 65535 0

theorem countFits_longest : countFits longest = true :=
  decide_eq_true (by rw [longest, List.length_replicate]; decide)

theorem test_wf_crcBlk : (Instr.crcBlk tooLong).wf = false := countFits_tooLong
theorem test_wf_txObj : (Instr.txObj 0 none tooLong).wf = false := countFits_tooLong
theorem test_wf_txObjReq : (Instr.txObjReq 0 none tooLong).wf = false := countFits_tooLong
theorem test_wf_txObjAck : (Instr.txObjAck 0 none tooLong).wf = false := countFits_tooLong
theorem test_wf_txAck : (Instr.txAck 0 none tooLong).wf = false := countFits_tooLong
theorem test_wf_txNack : (Instr.txNack 0 none tooLong).wf = false := countFits_tooLong
theorem test_wf_frameObj : (Instr.frameObj 0 none tooLong).wf = false := countFits_tooLong
theorem test_wf_frameObjReq : (Instr.frameObjReq 0 none tooLong).wf = false := countFits_tooLong
theorem test_wf_frameObjAck : (Instr.frameObjAck 0 none tooLong).wf = false := countFits_tooLong
theorem test_wf_frameAck : (Instr.frameAck 0 none tooLong).wf = false := countFits_tooLong
theorem test_wf_frameNack : (Instr.frameNack 0 none tooLong).wf = false := countFits_tooLong
theorem test_wf_longest : (Instr.crcBlk longest).wf = true := countFits_longest

/-! Decode: a word of every row, from the opcode table and the operand formats of R113 (packing: log 1). -/

theorem test_decode_init : decode [0x00, 0x40, 0x01] = .ok (.init 0x0140) := by rfl
theorem test_decode_rxByte : decode [0x01, 0x3C] = .ok (.rxByte 0x3C) := by rfl
theorem test_decode_crcInit : decode [0x02] = .ok .crcInit := by rfl
theorem test_decode_crcUpd : decode [0x03, 0x31] = .ok (.crcUpd 0x31) := by rfl
theorem test_decode_crcBlk : decode [0x04, 0x03, 0x00, 0x31, 0x32, 0x33] = .ok (.crcBlk [0x31, 0x32, 0x33]) := by rfl
theorem test_decode_statGet : decode [0x05] = .ok .statGet := by rfl
theorem test_decode_statReset : decode [0x06] = .ok .statReset := by rfl
theorem test_decode_txObj :
    decode [0x08, 0x01, 0x10, 0x00, 0x00, 0x00, 0x00, 0x00, 0x02, 0x00, 0x01, 0x02]
      = .ok (.txObj 0x1001 none [0x01, 0x02]) := by rfl
theorem test_decode_txObjReq :
    decode [0x09, 0x02, 0x20, 0x00, 0x00, 0x01, 0xFF, 0xFF, 0x00, 0x00] = .ok (.txObjReq 0x2002 (some 0xFFFF) []) := by
  rfl
theorem test_decode_txObjAck :
    decode [0x0A, 0x78, 0x56, 0x34, 0x12, 0x01, 0xCD, 0xAB, 0x01, 0x00, 0x3C]
      = .ok (.txObjAck 0x12345678 (some 0xABCD) [0x3C]) := by rfl
theorem test_decode_txAck :
    decode [0x0B, 0x01, 0x10, 0x00, 0x00, 0x00, 0xFF, 0xFF, 0x00, 0x00] = .ok (.txAck 0x1001 none []) := by rfl
theorem test_decode_txNack :
    decode [0x0C, 0xAD, 0xDE, 0x00, 0x00, 0x00, 0x00, 0x00, 0x00, 0x00] = .ok (.txNack 0xDEAD none []) := by rfl
theorem test_decode_reservedOp7 : decode [0x07] = .ok .reservedOp7 := by rfl
theorem test_decode_reservedOpD : decode [0x0D] = .ok .reservedOpD := by rfl
theorem test_decode_reservedOpE : decode [0x0E] = .ok .reservedOpE := by rfl
theorem test_decode_reservedOpF : decode [0x0F] = .ok .reservedOpF := by rfl
theorem test_decode_frameObj :
    decode [0x20, 0x01, 0x10, 0x00, 0x00, 0x00, 0x00, 0x00, 0x01, 0x00, 0xAA] = .ok (.frameObj 0x1001 none [0xAA]) := by
  rfl
theorem test_decode_frameObjReq :
    decode [0x21, 0x02, 0x20, 0x00, 0x00, 0x01, 0x05, 0x00, 0x00, 0x00] = .ok (.frameObjReq 0x2002 (some 5) []) := by
  rfl
theorem test_decode_frameObjAck :
    decode [0x22, 0x01, 0x10, 0x00, 0x00, 0x00, 0x00, 0x00, 0x00, 0x00] = .ok (.frameObjAck 0x1001 none []) := by rfl
theorem test_decode_frameAck :
    decode [0x23, 0x01, 0x10, 0x00, 0x00, 0x00, 0x00, 0x00, 0x00, 0x00] = .ok (.frameAck 0x1001 none []) := by rfl
theorem test_decode_frameNack :
    decode [0x24, 0x01, 0x10, 0x00, 0x00, 0x00, 0x00, 0x00, 0x00, 0x00] = .ok (.frameNack 0x1001 none []) := by rfl
theorem test_decode_frameReservedKind5 : decode [0x25] = .ok .frameReservedKind5 := by rfl
theorem test_decode_frameReservedKind6 : decode [0x26] = .ok .frameReservedKind6 := by rfl
theorem test_decode_frameReservedKind7 : decode [0x27] = .ok .frameReservedKind7 := by rfl
theorem test_decode_empty : decode [] = .error .empty := by rfl
theorem test_decode_noSuchWord : decode [0x10] = .error (.noSuchWord 0x10) := by rfl
theorem test_decode_truncated : decode [0x04, 0x02, 0x00, 0x31] = .error .truncated := by rfl
theorem test_decode_hasInst :
    decode [0x0B, 0x01, 0x10, 0x00, 0x00, 0x02, 0x00, 0x00, 0x00, 0x00] = .error (.hasInstNotBit 0x02) := by rfl
theorem test_decode_excess : decode [0x05, 0x00] = .error .excessBytes := by rfl

/-! The checksum engine: V30, V31, V33. -/

theorem test_crc8Byte_top : crc8Byte 0x07 0x00 0x80 = 0x89 := by decide
theorem test_crc8Byte_second : crc8Byte 0x07 0xB4 0x22 = 0xEB := by decide
theorem test_crc8Block_check :
    crc8Block 0x07 0x00 [0x31, 0x32, 0x33, 0x34, 0x35, 0x36, 0x37, 0x38, 0x39] = 0xF4 := by decide
theorem test_crc8Block_otherInit :
    crc8Block 0x07 0xFF [0x31, 0x32, 0x33, 0x34, 0x35, 0x36, 0x37, 0x38, 0x39] = 0xFB := by decide

/-! One step of each operation. -/

/-- R34, R230, and V84: the frame in progress is dropped. -/
theorem test_init :
    view (fun t => (t.rxState, t.mtu, t.crcAcc, counters t)) (exec (.init 32) { inState .objid afterObjId2 with crcAcc := 9 })
      = some (.sync, 32, 0, [0, 0, 0, 0, 0, 0]) := by rfl
/-- V87. -/
theorem test_init_zero : exec (.init 0) fresh = .refused .zeroMtu := by rfl
/-- V1, byte 0. -/
theorem test_rxByte_sync :
    view (fun t => (t.rxState, t.rx, counters t)) (exec (.rxByte 0x3C) fresh)
      = some (.type, afterSync, [1, 0, 0, 0, 0, 0]) := by decide
/-- V87. -/
theorem test_rxByte_beforeInit : exec (.rxByte 0x3C) State.reset = .refused .beforeInit := by rfl
/-- V34. -/
theorem test_crcInit : view (·.crcAcc) (exec .crcInit { fresh with crcAcc := 0xF4 }) = some 0x00 := by rfl
/-- V34. -/
theorem test_crcUpd :
    view (fun t => (t.crcAcc, t.response)) (exec (.crcUpd 0x32) { fresh with crcAcc := 0x97 })
      = some (0x72, .crc 0x72) := by decide
/-- V34. -/
theorem test_crcBlk :
    view (fun t => (t.crcAcc, t.response))
        (exec (.crcBlk [0x33, 0x34, 0x35, 0x36, 0x37, 0x38, 0x39]) { fresh with crcAcc := 0x72 })
      = some (0xF4, .crc 0xF4) := by decide
/-- V34: an empty block. -/
theorem test_crcBlk_empty :
    view (fun t => (t.crcAcc, t.response)) (exec (.crcBlk []) { fresh with crcAcc := 0xF4 })
      = some (0xF4, .crc 0xF4) := by decide
/-- V81: reading does not clear, and the order of the six (R231). -/
theorem test_statGet :
    view (fun t => (t.response, t.stats)) (exec .statGet { fresh with stats := ⟨1, 2, 3, 4, 5, 6⟩ })
      = some (.counters ⟨1, 2, 3, 4, 5, 6⟩, ⟨1, 2, 3, 4, 5, 6⟩) := by decide
/-- V83: the frame in progress survives. -/
theorem test_statReset :
    view (fun t => (counters t, t.rxState, t.rx))
        (exec .statReset { inState .objid afterObjId2 with stats := ⟨1, 2, 3, 4, 5, 6⟩ })
      = some ([0, 0, 0, 0, 0, 0], .objid, afterObjId2) := by decide
/-- V40. -/
theorem test_txObj :
    view (fun t => (t.trace, t.response, counters t)) (exec (.txObj 0x1001 none [1, 2, 3, 4]) fresh)
      = some ([.sink [0x3C, 0x20, 0x0C, 0x00, 0x01, 0x10, 0x00, 0x00, 0x01, 0x02, 0x03, 0x04, 0xEB]], .ok,
          [0, 0, 0, 13, 1, 0]) := by decide
/-- V48: the instance id. -/
theorem test_txObj_instance :
    view (·.trace) (exec (.txObj 0x2002 (some 2) [0xAA, 0xBB, 0xCC]) fresh)
      = some [.sink [0x3C, 0x20, 0x0D, 0x00, 0x02, 0x20, 0x00, 0x00, 0x02, 0x00, 0xAA, 0xBB, 0xCC, 0x4C]] := by decide
/-- V44. -/
theorem test_txObjReq :
    view (·.trace) (exec (.txObjReq 0x2002 (some 0xFFFF) []) fresh)
      = some [.sink [0x3C, 0x21, 0x0A, 0x00, 0x02, 0x20, 0x00, 0x00, 0xFF, 0xFF, 0x87]] := by decide
/-- V72: chunks of 5 bytes. -/
theorem test_txObjAck_chunks :
    view (fun t => (t.trace, counters t)) (exec (.txObjAck 0x1001 none [1, 2, 3, 4]) { fresh with mtu := 5 })
      = some ([.sink [0x3C, 0x22, 0x0C, 0x00, 0x01], .sink [0x10, 0x00, 0x00, 0x01, 0x02], .sink [0x03, 0x04, 0xD5]],
          [0, 0, 0, 13, 1, 0]) := by decide
/-- V4b: little-endian fields. -/
theorem test_txObjAck :
    view (·.trace) (exec (.txObjAck 0x12345678 (some 0xABCD) [0x3C]) fresh)
      = some [.sink [0x3C, 0x22, 0x0B, 0x00, 0x78, 0x56, 0x34, 0x12, 0xCD, 0xAB, 0x3C, 0x55]] := by decide
/-- V45. -/
theorem test_txAck :
    view (·.trace) (exec (.txAck 0x1001 none []) fresh)
      = some [.sink [0x3C, 0x23, 0x08, 0x00, 0x01, 0x10, 0x00, 0x00, 0xB1]] := by decide
/-- V47. -/
theorem test_txNack :
    view (·.trace) (exec (.txNack 0xDEAD none []) fresh)
      = some [.sink [0x3C, 0x24, 0x08, 0x00, 0xAD, 0xDE, 0x00, 0x00, 0x14]] := by decide
/-- V87. -/
theorem test_reservedOp7 : exec .reservedOp7 fresh = .refused (.reservedOperation 0x7) := by rfl
theorem test_reservedOpD : exec .reservedOpD fresh = .refused (.reservedOperation 0xD) := by rfl
theorem test_reservedOpE : exec .reservedOpE fresh = .refused (.reservedOperation 0xE) := by rfl
theorem test_reservedOpF : exec .reservedOpF fresh = .refused (.reservedOperation 0xF) := by rfl
/-- V11. -/
theorem test_frameObj :
    view (fun t => (t.trace, t.rxState, counters t)) (exec (.frameObj 0x2002 (some 2) [0xAA, 0xBB, 0xCC]) fresh)
      = some ([.deliver ⟨.obj, 0x2002, true, 2, 3, [0xAA, 0xBB, 0xCC]⟩], .sync, [14, 1, 0, 0, 0, 0]) := by decide
/-- V60: an unknown object, one counted error, the rest discarded. -/
theorem test_frameObj_unknown :
    view (fun t => (t.trace, t.causes, counters t)) (exec (.frameObj 0xDEAD none [1, 2, 3, 4]) fresh)
      = some ([], [.errUnknownObj], [13, 0, 1, 0, 0, 0]) := by decide
/-- V12. -/
theorem test_frameObjReq :
    view (fun t => (t.trace, counters t)) (exec (.frameObjReq 0xDEAD none []) fresh)
      = some ([.deliver ⟨.objReq, 0xDEAD, false, 0, 0, []⟩], [9, 1, 0, 0, 0, 0]) := by decide
/-- V67. -/
theorem test_frameObjReq_unknownLong :
    view (fun t => (t.trace, t.causes)) (exec (.frameObjReq 0xDEAD (some 0) []) fresh)
      = some ([], [.errLenMismatch]) := by decide
/-- V1. -/
theorem test_frameObjAck :
    view (fun t => (t.trace, counters t)) (exec (.frameObjAck 0x1001 none [1, 2, 3, 4]) fresh)
      = some ([.deliver ⟨.objAck, 0x1001, true, 0, 4, [1, 2, 3, 4]⟩], [13, 1, 0, 0, 0, 0]) := by decide
/-- V16. -/
theorem test_frameAck :
    view (·.trace) (exec (.frameAck 0x2002 (some 2) []) fresh)
      = some [.deliver ⟨.ack, 0x2002, true, 2, 0, []⟩] := by decide
/-- V17. -/
theorem test_frameNack :
    view (·.trace) (exec (.frameNack 0x1001 none []) fresh)
      = some [.deliver ⟨.nack, 0x1001, true, 0, 0, []⟩] := by decide
/-- V69. -/
theorem test_frameNack_multi :
    view (fun t => (t.trace, t.causes, counters t)) (exec (.frameNack 0x2002 none []) fresh)
      = some ([], [.errLenMismatch], [9, 0, 1, 0, 0, 0]) := by decide
/-- V52. -/
theorem test_frameReservedKind5 :
    view (fun t => (t.rxState, t.causes, counters t)) (exec .frameReservedKind5 fresh)
      = some (.sync, [.resyncKind], [2, 0, 0, 0, 0, 0]) := by decide
theorem test_frameReservedKind6 :
    view (fun t => (t.rxState, t.causes, counters t)) (exec .frameReservedKind6 fresh)
      = some (.sync, [.resyncKind], [2, 0, 0, 0, 0, 0]) := by decide
/-- V53. -/
theorem test_frameReservedKind7 :
    view (fun t => (t.rxState, t.causes, counters t)) (exec .frameReservedKind7 fresh)
      = some (.sync, [.resyncKind], [2, 0, 0, 0, 0, 0]) := by decide

/-! The states of the decoder: V1, V11, V57, V6a, V86. -/

theorem test_state_size_last :
    view (fun t => (t.rxState, t.rx.cs, t.rx.len, t.rx.fld, t.rx.count)) (exec (.rxByte 0x00) (inState .size afterSize0))
      = some (.objid, 0x28, 0x0C, 0, 4) := by decide
theorem test_state_size_range :
    view (fun t => (t.rxState, t.rx.len, t.causes, t.stats.rxErrors))
        (exec (.rxByte 0x01) (inState .size { afterSize0 with len := 0x0A }))
      = some (.sync, 0x010A, [.errLenRange], 1) := by decide
theorem test_state_objid_last :
    view (fun t => (t.rxState, t.rx)) (exec (.rxByte 0x00) (inState .objid afterObjId2))
      = some (.data, { afterObjId2 with cs := 0xCA, count := 8, fld := 0, found := true, single := true, paylen := 4 }) := by
  decide
theorem test_state_instid_last :
    view (fun t => (t.rxState, t.rx)) (exec (.rxByte 0x00) (inState .instid afterInstId0))
      = some (.data, { afterInstId0 with cs := 0x89, count := 10, fld := 0 }) := by decide
theorem test_state_data_last :
    view (fun t => (t.rxState, t.rx, t.rxBuf.read 3))
        (exec (.rxByte 0x04) (inState .data { afterData3 with cs := 0x42, count := 11, fld := 3 }))
      = some (.cs, afterData3, some 0x04) := by decide
theorem test_state_cs_match :
    view (fun t => (t.rxState, t.rx.cs, t.rx.count, t.trace)) (exec (.rxByte 0xD5) beforeChecksum)
      = some (.sync, 0xD5, 13, [.deliver ⟨.objAck, 0x1001, true, 0, 4, [1, 2, 3, 4]⟩]) := by decide
theorem test_state_cs_mismatch :
    view (fun t => (t.rxState, t.trace, t.causes, counters t)) (exec (.rxByte 0xD4) beforeChecksum)
      = some (.sync, [], [.errChecksum], [1, 0, 1, 0, 0, 0]) := by decide
theorem test_counter_wraps :
    view (fun t => t.stats.rxBytes) (exec (.rxByte 0x00) { fresh with stats := ⟨0xFFFFFFFF, 0, 0, 0, 0, 0⟩ })
      = some 0 := by decide

/-! The host around the block. -/

/-- A fresh state with Object Dispatch connected and one `Deliver` event not consumed yet. -/
def withDelivery (d : Deliver) : State := { fresh with trace := [.deliver d], env := { fresh.env with attached := true } }

/-- With a transaction pending. -/
def withSlot (p : Slot) (s : State) : State := { s with env := { s.env with slot := some p } }

/-- With values in the object model. -/
def withStore (store : List StoredObject) (s : State) : State := { s with env := { s.env with store := store } }

/-- V1, the receiver's host: unpack, then the ack (R256). -/
theorem test_dispatch_objAck :
    view (fun t => (t.trace.drop 1, t.env.store))
        (playMoves [.dispatch (some []), .issue 0] (withDelivery ⟨.objAck, 0x1001, true, 0, 4, [1, 2, 3, 4]⟩))
      = some ([.sink [0x3C, 0x23, 0x08, 0x00, 0x01, 0x10, 0x00, 0x00, 0xB1]], [⟨0x1001, 0, [1, 2, 3, 4]⟩]) := by decide
/-- R256: no ack when unpack fails; R255: the match is of id and instance id only. -/
theorem test_dispatch_unpackFails :
    view (fun t => (t.trace.drop 1, t.env.store, t.env.tasks, t.env.slot))
        (hostMove (.dispatch none)
          (withSlot ⟨⟨0x1001, 0⟩, false⟩ (withDelivery ⟨.objAck, 0x1001, true, 0, 4, [1, 2, 3, 4]⟩)))
      = some ([], [], [], some ⟨⟨0x1001, 0⟩, true⟩) := by decide
/-- R251, U8: a draw may give bytes for an instance without a value, exactly `size_of(id)` of them, or a failure (D33). -/
theorem test_pack_draw :
    pack fresh (some [7, 8, 9]) 0x2002 4 = some [7, 8, 9]
      ∧ (pack fresh (some [7, 8, 9, 10]) 0x2002 4).map List.length = some 3
      ∧ pack fresh none 0x2002 4 = none := by decide
/-- R251: `unpack` consumes exactly `size_of(id)` bytes, the delivered ones first. -/
theorem test_unpack_otherSize :
    unpackedValue fresh (some [9]) 0x2002 [1, 2] = some [1, 2, 9]
      ∧ unpackedValue fresh (some [9]) 0x2002 [1, 2, 3, 4] = some [1, 2, 3] := by
  decide
/-- R257: the wildcard request is answered for every live instance, ascending, whatever their ids. -/
theorem test_dispatch_wildcardRequest :
    view (fun t => (t.trace.drop 1, t.env.tasks))
        (playMoves [.dispatch (some []), .pack 0 (some []), .issue 0, .pack 0 (some []), .issue 0]
          (withStore [⟨0x2002, 5, [4, 5, 6]⟩, ⟨0x2002, 1, [1, 2, 3]⟩] (withDelivery ⟨.objReq, 0x2002, true, 0xFFFF, 0, []⟩)))
      = some ([.sink (frameBytes Config.default .obj 0x2002 (some 1) [1, 2, 3]),
          .sink (frameBytes Config.default .obj 0x2002 (some 5) [4, 5, 6])], []) := by decide
/-- R259, R264: an ack resolves a transaction that awaits any instance, and its caller wakes. -/
theorem test_dispatch_ackResolves :
    view (fun t => (t.env.slot, t.env.reports))
        (playMoves [.dispatch (some []), .wake] (withSlot ⟨⟨0x2002, 0xFFFF⟩, false⟩ (withDelivery ⟨.ack, 0x2002, true, 2, 0, []⟩)))
      = some (none, [.resolved ⟨0x2002, 0xFFFF⟩]) := by decide
/-- R261, R264: a frame that the encoder rejects tears the transaction down. -/
theorem test_txn_fail :
    view (fun t => (t.env.slot, t.env.tasks, t.env.reports, t.stats.txErrors))
        (playMoves [.startTxn ⟨.ackedSend, 0x4004, 0⟩, .pack 0 (some []), .issue 0]
          (withStore [⟨0x4004, 0, List.replicate 300 0⟩] fresh))
      = some (none, [], [.txnFailed ⟨0x4004, 0⟩], 1) := by decide
/-- R342, D19: `INIT` frees the transaction slot. -/
theorem test_init_freesSlot :
    view (fun t => t.env.slot) (exec (.init 64) (withSlot ⟨⟨0x1001, 0⟩, true⟩ fresh)) = some none := by rfl
/-- R254: Object Dispatch runs before the next `RX.BYTE`. -/
theorem test_step_dispatchFirst :
    view (fun t => (t.env.dispatched, t.inputs))
        (step { withDelivery ⟨.nack, 0x1001, true, 0, 0, []⟩ with
          inputs := [.command [0x01, 0x3C], .move (.dispatch (some []))] })
      = some (1, [.command [0x01, 0x3C]]) := by decide
/-- R115: with Object Dispatch connected a frame row is received byte by byte. -/
theorem test_step_splitFrame :
    view (fun t => (t.inputs, t.stats))
        (step { fresh with env := { fresh.env with attached := true }, inputs := [.command [0x25]] })
      = some ([.command [0x01, 0x3C], .command [0x01, 0x25]], Stats.zero) := by decide
/-- R340: after reset the block waits. -/
theorem test_step_reset : step State.reset = .next State.reset := by rfl
/-- R342, R343: the first command is `INIT`. -/
theorem test_step_firstCommand :
    view (fun t => (t.mtu, t.initialised, t.inputs)) (step { State.reset with inputs := [.command [0x00, 0x40, 0x00]] })
      = some (64, true, []) := by rfl

/-! Witnesses: for every statement with hypotheses, a state and operands that meet them together. -/

theorem sound_fresh : Sound fresh :=
  ⟨by decide, by decide, by unfold Stats.bounded; decide, Memory.within_nil _, Memory.within_nil _, trivial⟩

theorem sound_beforeChecksum : Sound beforeChecksum :=
  ⟨by decide, by decide, by unfold Stats.bounded; decide,
   ⟨by decide, by show ∀ c ∈ ([(0, 1), (1, 2), (2, 3), (3, 4)] : Memory), c.1 < 255; decide⟩, Memory.within_nil _,
   ⟨⟨by decide, by decide⟩, by decide, by decide, by decide, by decide, by decide⟩, by decide,
   by unfold Memory.writtenTo; decide⟩

theorem witness_DecodeOfEncodeIsTheInstruction : (Instr.txObj 0x1001 (some 0xFFFF) [0x3C]).wf = true := by decide

theorem witness_DecodedWordsAreWellFormed : decode [0x04, 0x01, 0x00, 0xFF] = .ok (.crcBlk [0xFF]) := by rfl

theorem witness_EveryFirstByteHasOneRow : ∀ o : Op, o.word ≠ 0x10 ∧ o.word ≠ 0x1F ∧ o.word ≠ 0x28 := by
  intro o; cases o <;> decide

/-- An input that is next because none stands before it. -/
theorem takesNext_head {s : State} {j : Input} {rest : List Input} (h : s.inputs = j :: rest)
    (hj : ¬ (dispatchBusy s ∧ isReceive j)) : takesNext s j rest :=
  ⟨[], rest, h, rfl, fun _ hm => (List.not_mem_nil hm).elim, hj⟩

theorem not_dispatchBusy_of_detached {s : State} (h : s.env.attached = false) : ¬ dispatchBusy s :=
  fun hb => Bool.false_ne_true (h.symm.trans hb.1)

theorem dispatchBusy_withDelivery (d : Deliver) (inputs : List Input) :
    dispatchBusy { withDelivery d with inputs := inputs } := ⟨rfl, .inl (by simp [withDelivery, deliveries, fresh, Env.reset])⟩

theorem not_isReceive_move (m : Move) : ¬ isReceive (.move m) := fun h => by
  obtain ⟨_, _, h, _⟩ := h
  exact Input.noConfusion h

/-- A fresh state with one input. -/
def given (j : Input) : State := { fresh with inputs := [j] }

/-- The same with Object Dispatch connected. -/
def givenAttached (j : Input) : State := { given j with env := { fresh.env with attached := true } }

theorem takesNext_givenAttached (j : Input) : takesNext (givenAttached j) j [] :=
  takesNext_head rfl fun h => by
    obtain ⟨⟨_, h⟩, _⟩ := h
    simp [givenAttached, given, fresh, State.reset, Env.reset, deliveries] at h

theorem witness_StepRunsTheNextInput :
    (takesNext (given (.command [0x05])) (.command [0x05]) [] ∧ decode [0x05] = .ok .statGet
        ∧ (given (.command [0x05])).env.attached = false)
      ∧ (takesNext (givenAttached (.command (encode (.frameNack 0 none [])))) (.command (encode (.frameNack 0 none []))) []
        ∧ decode (encode (.frameNack 0 none [])) = .ok (frameInstr .nack 0 none []))
      ∧ (takesNext (givenAttached (.command [0x26])) (.command [0x26]) [] ∧ decode [0x26] = .ok .frameReservedKind6
        ∧ (Instr.frameReservedKind6.op, (6 : Byte)) ∈
          [(Op.frameReservedKind5, 5), (.frameReservedKind6, 6), (.frameReservedKind7, 7)])
      ∧ (takesNext (given (.command [0x10])) (.command [0x10]) [] ∧ decode [0x10] = .error (.noSuchWord 0x10)) :=
  ⟨⟨takesNext_head rfl fun h => not_dispatchBusy_of_detached rfl h.1, rfl, rfl⟩, ⟨takesNext_givenAttached _, rfl⟩,
   ⟨takesNext_givenAttached _, rfl, by decide⟩, ⟨takesNext_head rfl fun h => not_dispatchBusy_of_detached rfl h.1, rfl⟩⟩

/-- A move that passes a received byte which has to wait, and that byte alone. -/
theorem witness_StepRunsTheNextInput_held :
    let d : Deliver := ⟨.nack, 0x1001, true, 0, 0, []⟩
    let byte : Input := .command [0x01, 0x3C]
    let s := { withDelivery d with inputs := [byte, .move (.dispatch (some []))] }
    let w := { withDelivery d with inputs := [byte] }
    takesNext s (.move (.dispatch (some []))) [byte] ∧ ∀ j ∈ w.inputs, dispatchBusy w ∧ isReceive j :=
  have hr : isReceive (.command [0x01, 0x3C]) := ⟨_, .rxByte 0x3C, rfl, rfl, by decide⟩
  ⟨⟨[_], [], rfl, rfl,
     fun _ h => ⟨dispatchBusy_withDelivery _ _, (List.mem_singleton.1 h).symm ▸ hr⟩, fun h => not_isReceive_move _ h.2⟩,
   fun _ h => ⟨dispatchBusy_withDelivery _ _, (List.mem_singleton.1 h).symm ▸ hr⟩⟩

theorem witness_FetchWordRunsTheTableWord :
    decodeTableWord 8 0x05 = some .statGet ∧ decodeTableWord 8 0x21 = some (.frameObjReq 0 none []) := by
  decide

theorem witness_ChecksumByteIsInjective : (0x07 : Byte).getLsbD 0 = true ∧ crc8Byte 0x07 1 2 = crc8Byte 0x07 1 2 := by
  decide

theorem witness_SingleByteCorruptionIsDetected : (0x07 : Byte).getLsbD 0 = true ∧ (0x02 : Byte) ≠ 0xFF := by decide

/-- The hypothesis of the statements about `CRC.*` and `STAT.*`. -/
theorem witness_initialised : fresh.initialised = true := rfl

theorem witness_InitResetsTheBlock : (1 : Half) ≠ 0 := by decide

theorem witness_CommandsWithoutMeaningAreRefused :
    Instr.reservedOpF.op ∈ [Op.reservedOp7, .reservedOpD, .reservedOpE, .reservedOpF]
      ∧ State.reset.initialised = false ∧ (Instr.rxByte 0x3C).op ∈ guardedOps ∧ (Instr.txNack 0 none []).op ∈ guardedOps := by
  decide

/-- The hypotheses of `OnlyInitWritesMtu` and `OperationsLeaveTheHostAlone`. -/
theorem witness_OnlyInitWritesMtu :
    (Instr.statGet.op ≠ .init ∧ ∃ t, exec .statGet fresh = .next t)
      ∧ (Instr.init 1).op = .init ∧ ∃ t, exec (.init 1) fresh = .next t :=
  ⟨⟨by decide, _, rfl⟩, rfl, _, rfl⟩

theorem witness_SyncStateHuntsForTheSyncByte : fresh.initialised = true ∧ fresh.rxState = .sync := ⟨rfl, rfl⟩

theorem witness_TypeStateChecksVersionAndKind :
    let s := inState .type afterSync
    s.initialised = true ∧ s.rxState = .type
      ∧ (0x42 : Byte) &&& s.cfg.verMask ≠ s.cfg.verVal
      ∧ ((0x25 : Byte) &&& s.cfg.verMask = s.cfg.verVal ∧ ∀ k, codeOf s.cfg k ≠ (0x25 : Byte) &&& ~~~s.cfg.verMask)
      ∧ ((0x24 : Byte) &&& s.cfg.verMask = s.cfg.verVal ∧ ∃ k, codeOf s.cfg k = (0x24 : Byte) &&& ~~~s.cfg.verMask) :=
  ⟨rfl, rfl, by decide, ⟨by decide, by intro k; cases k <;> decide⟩, by decide, .nack, by decide⟩

/-- The length of a state in `SIZE` after a second byte. -/
def lengthAfter (low high : Byte) : Half :=
  (inState .size { afterSize0 with len := low.setWidth 16 }).rx.len ||| (high.setWidth 16 <<< (8 * (1 : Half).toNat))

theorem witness_SizeStateAssemblesTheLength :
    (inState .size afterSize0).initialised = true ∧ (inState .size afterSize0).rxState = .size
      ∧ ({ afterSize0 with fld := 0 } : RxRegs).fld ≠ 1 ∧ afterSize0.fld = 1
      ∧ (lengthAfter 0x07 0).toNat < 8 ∧ 10 + fresh.cfg.maxPayload < (lengthAfter 0x0A 1).toNat
      ∧ (8 ≤ (lengthAfter 0x08 0).toNat ∧ (lengthAfter 0x08 0).toNat ≤ 10 + fresh.cfg.maxPayload)
      ∧ (8 ≤ (lengthAfter 0x09 1).toNat ∧ (lengthAfter 0x09 1).toNat ≤ 10 + fresh.cfg.maxPayload) := by
  decide

theorem witness_ObjIdStateAssemblesTheId :
    (inState .objid afterObjId2).initialised = true ∧ (inState .objid afterObjId2).rxState = .objid
      ∧ afterObjId2.fld = 3 ∧ ({ afterObjId2 with fld := 2 } : RxRegs).fld ≠ 3 := by
  decide

/-- A state that is about to complete its object id: the kind by the type byte, the declared length, the id. -/
def completing (type : Byte) (len : Half) (objid : ObjId) : State :=
  inState .objid { afterObjId2 with type := type, len := len, objid := objid, count := 8, fld := 4 }

theorem witness_ObjIdCompletion_unknown :
    objLookup (completing 0x20 12 0xDEAD) 0xDEAD = none ∧ rxKind (completing 0x20 12 0xDEAD) ≠ some .objReq
      ∧ rxKind (completing 0x21 8 0xDEAD) = some .objReq
      ∧ (completing 0x21 9 0xDEAD).rx.count.toNat ≠ (completing 0x21 9 0xDEAD).rx.len.toNat
      ∧ (completing 0x21 8 0xDEAD).rx.count.toNat = (completing 0x21 8 0xDEAD).rx.len.toNat := by
  decide

theorem witness_ObjIdCompletion_known :
    objLookup (completing 0x20 265 0x4004) 0x4004 = some ⟨0x4004, true, 300⟩
      ∧ rxKind (completing 0x20 265 0x4004) ∉ [some Kind.objReq, some .ack, some .nack] ∧ fresh.cfg.maxPayload < 300
      ∧ objLookup (completing 0x20 265 0x5005) 0x5005 = some ⟨0x5005, false, 255⟩ ∧ 255 ≤ fresh.cfg.maxPayload
      ∧ (completing 0x20 265 0x5005).rx.count.toNat + 2 + 255 = (completing 0x20 265 0x5005).rx.len.toNat
      ∧ (completing 0x20 264 0x5005).rx.count.toNat + 2 + 255 ≠ (completing 0x20 264 0x5005).rx.len.toNat := by
  decide

theorem witness_InstIdStateAssemblesTheInstance :
    (inState .instid afterInstId0).initialised = true ∧ (inState .instid afterInstId0).rxState = .instid
      ∧ afterInstId0.fld = 1 ∧ ({ afterInstId0 with fld := 0 } : RxRegs).fld ≠ 1 := by
  decide

theorem witness_DataStateStoresThePayload :
    let s := inState .data { afterData3 with fld := 254, paylen := 255 }
    s.initialised = true ∧ s.rxState = .data ∧ s.rx.fld.toNat < s.cfg.maxPayload := by
  decide

theorem witness_ChecksumStateDeliversOrCounts :
    beforeChecksum.initialised = true ∧ beforeChecksum.rxState = .cs ∧ (0xD4 : Byte) ≠ beforeChecksum.rx.cs
      ∧ (0xD5 : Byte) = beforeChecksum.rx.cs
      ∧ (({ afterData3 with len := 11 } : RxRegs).count + 1).toNat ≠ ({ afterData3 with len := 11 } : RxRegs).len.toNat + 1
      ∧ (beforeChecksum.rx.count + 1).toNat = beforeChecksum.rx.len.toNat + 1 ∧ rxKind beforeChecksum = some .objAck
      ∧ ([1, 2, 3, 4] : List Byte).length = beforeChecksum.rx.paylen.toNat
      ∧ beforeChecksum.rxBuf.readFrom 0 4 = some [1, 2, 3, 4] := by
  decide

/-- The hypotheses of `RxByteAlwaysCompletes`, `FramesAlwaysComplete`, `ReceiveAndTransmitCommute` and `NoStepFaults`. -/
theorem witness_RxByteAlwaysCompletes :
    Sound beforeChecksum ∧ beforeChecksum.initialised = true ∧ State.reset.initialised = false
      ∧ (Instr.frameNack 0 none []).op ∈ frameOps ∧ Instr.frameReservedKind7.op ∈ frameOps :=
  ⟨sound_beforeChecksum, rfl, rfl, by decide, by decide⟩

/-- The hypotheses of `SequencerFollowsTheTransitionTable`, `OneByteRaisesAtMostOneEvent` and `CountTestNeverFails`. -/
theorem witness_CountTestNeverFails : Sound beforeChecksum ∧ ∃ t, exec (.rxByte 0xD4) beforeChecksum = .next t :=
  ⟨sound_beforeChecksum, _, rfl⟩

theorem witness_DeliveredFramesAreLegal :
    Sound beforeChecksum ∧ ∃ t, exec (.rxByte 0xD5) beforeChecksum = .next t
      ∧ t.trace = beforeChecksum.trace ++ [.deliver ⟨.objAck, 0x1001, true, 0, 4, [1, 2, 3, 4]⟩] :=
  ⟨sound_beforeChecksum, _, rfl, by decide⟩

theorem witness_LookupIsLatched : beforeChecksum.rxState ∈ [RxState.instid, .data, .cs] := by decide

theorem witness_TransmitSendsTheFrame :
    fresh.initialised = true ∧ fresh.mtu ≠ 0 ∧ fresh.cfg.wf = true
      ∧ (List.replicate 255 (0 : Byte)).length ≤ fresh.cfg.maxPayload := by
  decide

theorem witness_ChunksAreGreedy :
    ∃ t, exec (txInstr .ack 0x1001 none []) { fresh with mtu := 1 } = .next t ∧ t.response = .ok :=
  ⟨_, rfl, rfl⟩

theorem witness_OversizePayloadFails :
    fresh.initialised = true ∧ fresh.cfg.maxPayload < (List.replicate 256 (0 : Byte)).length ∧ fresh.mtu ≠ 0
      ∧ (List.replicate 255 (0 : Byte)).length ≤ fresh.cfg.maxPayload := by
  decide

theorem witness_FrameLayout : (List.replicate 255 (0 : Byte)).length ≤ 65525 := by decide

/-- A known single-instance object with a payload, and a known multi-instance one without. -/
theorem witness_AgreeingFrameIsDeliveredOnce :
    fresh.cfg.wf = true ∧ fresh.initialised = true ∧ fresh.rxState = .sync
      ∧ (objLookup fresh 0x1001 = some ⟨0x1001, true, 4⟩
        ∧ agreesWithModel fresh.cfg ⟨0x1001, true, 4⟩ .obj none [1, 2, 3, 4])
      ∧ (objLookup fresh 0x2002 = some ⟨0x2002, false, 3⟩
        ∧ agreesWithModel fresh.cfg ⟨0x2002, false, 3⟩ .ack (some 0xFFFF) []) :=
  ⟨by decide, rfl, rfl, ⟨rfl, by decide, by decide, by decide⟩, rfl, by decide, by decide, by decide⟩

/-- The hypotheses of `UnknownRequestIsDelivered` and `AckForUnknownObjectIsCounted`. -/
theorem witness_UnknownRequestIsDelivered :
    (Kind.nack = .ack ∨ Kind.nack = .nack) ∧ fresh.cfg.wf = true ∧ fresh.initialised = true ∧ fresh.rxState = .sync
      ∧ objLookup fresh 0xDEAD = none :=
  ⟨.inr rfl, by decide, rfl, rfl, rfl⟩

theorem witness_ReservedKindIsLeftUncounted :
    fresh.cfg.wf = true ∧ fresh.initialised = true ∧ fresh.rxState = .sync
      ∧ ((5 : Byte) &&& fresh.cfg.verMask = 0 ∧ ∀ k, codeOf fresh.cfg k ≠ 5)
      ∧ ((6 : Byte) &&& fresh.cfg.verMask = 0 ∧ ∀ k, codeOf fresh.cfg k ≠ 6)
      ∧ ((7 : Byte) &&& fresh.cfg.verMask = 0 ∧ ∀ k, codeOf fresh.cfg k ≠ 7) :=
  ⟨by decide, rfl, rfl, ⟨by decide, by intro k; cases k <;> decide⟩, ⟨by decide, by intro k; cases k <;> decide⟩,
   by decide, by intro k; cases k <;> decide⟩

theorem witness_TransmittedFrameCrossesTheLink :
    let r := { fresh with crcAcc := 0x55, stats := ⟨9, 0, 0, 0, 0, 0⟩ }
    fresh.cfg.wf = true ∧ fresh.initialised = true ∧ fresh.mtu ≠ 0 ∧ r.cfg = fresh.cfg ∧ r.initialised = true
      ∧ r.rxState = .sync ∧ ¬ dispatchBusy r ∧ objLookup r 0x3003 = some ⟨0x3003, true, 0⟩
      ∧ agreesWithModel fresh.cfg ⟨0x3003, true, 0⟩ .objAck none [] :=
  ⟨by decide, rfl, by decide, rfl, rfl, rfl, not_dispatchBusy_of_detached rfl, rfl, by decide, by decide, by decide⟩

theorem witness_EveryStepKeepsTheInvariant :
    ∃ t, Sound { fresh with inputs := [.command [0x01, 0x3C]] }
      ∧ step { fresh with inputs := [.command [0x01, 0x3C]] } = .next t ∧ t.rxState = .type :=
  ⟨_, sound_fresh, rfl, by decide⟩

/-- The host's part: a `Deliver` event to consume and a transaction pending, before a step that consumes the event. -/
theorem witness_EveryStepKeepsTheInvariant_host :
    let s := { withSlot ⟨⟨0x1001, 0⟩, false⟩ (withDelivery ⟨.ack, 0x1001, true, 0, 0, []⟩) with
      inputs := [.command [0x01, 0x3C], .move (.dispatch (some []))] }
    HostSound s ∧ ∃ t, step s = .next t :=
  ⟨⟨by decide, nofun, by decide, fun _ => .inr ⟨rfl, rfl⟩⟩, _, rfl⟩

theorem witness_UnspecifiedValuesAreNeverObserved :
    sameVisible fresh { fresh with txLen := 5, rx := afterData3 } ∧ fresh ≠ { fresh with txLen := 5, rx := afterData3 } :=
  ⟨⟨rfl, rfl, rfl, rfl, rfl, rfl, rfl, rfl, rfl, rfl, rfl, trivial⟩, by decide⟩

theorem canDispatch_withDelivery (d : Deliver) : canDispatch (withDelivery d) d :=
  ⟨rfl, rfl, fun _ h => (List.not_mem_nil h).elim⟩

theorem witness_WildcardUpdateIsRejected :
    let d : Deliver := ⟨.obj, 0x2002, true, 0xFFFF, 3, [1, 2, 3]⟩
    canDispatch (withDelivery d) d ∧ (d.kind = .obj ∨ d.kind = .objAck) ∧ d.instid = (withDelivery d).cfg.allInstances :=
  ⟨canDispatch_withDelivery _, .inl rfl, rfl⟩

/-- An update that matches the pending transaction, and one that does not. -/
theorem witness_StoredUpdateIsAcknowledged :
    let d : Deliver := ⟨.objAck, 0x2002, true, 2, 3, [1, 2, 3]⟩
    let s := withSlot ⟨⟨0x2002, 2⟩, false⟩ (withDelivery d)
    canDispatch s d ∧ (d.kind = .obj ∨ d.kind = .objAck) ∧ d.instid ≠ s.cfg.allInstances
      ∧ objLookup s d.objid = some ⟨0x2002, false, 3⟩ ∧ d.payload.length = (3 : Half).toNat ∧ s.initialised = true
      ∧ s.mtu ≠ 0 ∧ (some [] : Draw) ≠ none ∧ awaits s.cfg ⟨0x2002, 2⟩ d ∧ ¬ awaits s.cfg ⟨0x2002, 3⟩ d :=
  ⟨canDispatch_withDelivery _, .inr rfl, by decide, rfl, rfl, rfl, by decide, nofun, ⟨rfl, .inl rfl⟩,
   fun h => h.2.elim (by decide) (by decide)⟩

/-- A request about an unknown object, one about an instance with a value, one about an instance without, and a wildcard
request. -/
theorem witness_RequestsAreAnswered :
    let unknown : Deliver := ⟨.objReq, 0xDEAD, false, 0, 0, []⟩
    let one : Deliver := ⟨.objReq, 0x2002, true, 0xFFFE, 0, []⟩
    let s := withStore [⟨0x2002, 0xFFFE, [1, 2, 3]⟩] (withDelivery one)
    canDispatch (withDelivery unknown) unknown ∧ fresh.initialised = true ∧ fresh.mtu ≠ 0
      ∧ canDispatch s one ∧ one.instid ≠ s.cfg.allInstances ∧ objLookup s one.objid = some ⟨0x2002, false, 3⟩
      ∧ instanceValue s one.objid one.instid = some [1, 2, 3] ∧ ([1, 2, 3] : List Byte).length = (3 : Half).toNat
      ∧ (3 : Half).toNat ≤ s.cfg.maxPayload
      ∧ canDispatch (withDelivery one) one ∧ instanceValue (withDelivery one) one.objid one.instid = none
      ∧ canDispatch (withDelivery { one with instid := 0xFFFF }) { one with instid := 0xFFFF } :=
  ⟨canDispatch_withDelivery _, rfl, by decide, ⟨rfl, rfl, fun _ h => (List.not_mem_nil h).elim⟩, by decide, rfl, rfl, rfl,
   by decide, canDispatch_withDelivery _, rfl, canDispatch_withDelivery _⟩

/-- An ack that matches, one that does not, and a nack. -/
theorem witness_AckResolvesTheMatchingTransaction :
    let d : Deliver := ⟨.ack, 0x2002, true, 2, 0, []⟩
    let s := fun a => withSlot ⟨a, false⟩ (withDelivery d)
    (canDispatch (s ⟨0x2002, 2⟩) d ∧ awaits Config.default ⟨0x2002, 2⟩ d ∧ txnSent (s ⟨0x2002, 2⟩))
      ∧ (canDispatch (s ⟨0x2002, 3⟩) d ∧ ¬ awaits Config.default ⟨0x2002, 3⟩ d)
      ∧ canDispatch (withDelivery { d with kind := .nack }) { d with kind := .nack } :=
  ⟨⟨canDispatch_withDelivery _, ⟨rfl, .inl rfl⟩, fun _ h => (List.not_mem_nil h).elim⟩,
   ⟨canDispatch_withDelivery _, fun h => h.2.elim (by decide) (by decide)⟩, canDispatch_withDelivery _⟩

theorem witness_PlainSendTransmitsOneUpdate :
    let s := withStore [⟨0x1001, 0, [1, 2, 3, 4]⟩] fresh
    objLookup s 0x1001 = some ⟨0x1001, true, 4⟩ ∧ instanceValue s 0x1001 0 = some [1, 2, 3, 4]
      ∧ instanceValue fresh 0x1001 0 = none
      ∧ ([1, 2, 3, 4] : List Byte).length = (4 : Half).toNat ∧ (4 : Half).toNat ≤ s.cfg.maxPayload
      ∧ (0 : Half) ≠ s.cfg.allInstances ∧ s.initialised = true ∧ s.mtu ≠ 0 :=
  ⟨rfl, rfl, rfl, rfl, by decide, by decide, rfl, by decide⟩

/-- The hypotheses of `SecondTransactionBlocks` and `TimeoutFreesTheSlot`: no event to consume, the signal given, and a
resolving event to consume. -/
theorem witness_TimeoutFreesTheSlot :
    let d : Deliver := ⟨.ack, 0x1001, true, 0, 0, []⟩
    let s := withSlot ⟨⟨0x1001, 0⟩, false⟩ fresh
    let w := withSlot ⟨⟨0x1001, 0⟩, false⟩ (withDelivery d)
    (s.env.slot = some ⟨⟨0x1001, 0⟩, false⟩ ∧ txnSent s ∧ nextDeliver s = none)
      ∧ (withSlot ⟨⟨0x1001, 0⟩, true⟩ fresh).env.slot = some ⟨⟨0x1001, 0⟩, true⟩
      ∧ nextDeliver w = some d ∧ awaits w.cfg ⟨0x1001, 0⟩ d :=
  ⟨⟨rfl, fun _ h => (List.not_mem_nil h).elim, rfl⟩, rfl, rfl, rfl, .inl rfl⟩

theorem witness_RequestTakesTheSlotAndSends :
    fresh.env.slot = none ∧ fresh.initialised = true ∧ fresh.mtu ≠ 0 ∧ objLookup fresh 0x2002 = some ⟨0x2002, false, 3⟩
      ∧ objLookup fresh 0xDEAD = none :=
  ⟨rfl, rfl, by decide, rfl, rfl⟩

end Sys2Proof.Tests
end

section
/-! The encoding of frames and commands (`spec/30_encoding.md`): the little-endian fields of a frame as bytes of a number, the
covered bytes of a frame in that spelling, and the statements settled from them. -/

namespace Sys2Proof.Machine

/-- `le16` as the bytes of a number, low byte first (R63). -/
theorem le16_eq_bytesOfNat (v : Half) : le16 v = bytesOfNat 2 v.toNat := by
  simp [le16, bytesOfNat, BitVec.extractLsb', Nat.shiftRight_eq_div_pow]

/-- `le32` as the bytes of a number, low byte first (R63). -/
theorem le32_eq_bytesOfNat (v : ObjId) : le32 v = bytesOfNat 4 v.toNat := by
  simp [le32, bytesOfNat, BitVec.extractLsb', Nat.shiftRight_eq_div_pow, Nat.div_div_eq_div_mul]

/-- A number that fits 16 bits loses nothing in its field. -/
theorem le16_ofNat {n : Nat} (h : n < 65536) : le16 (BitVec.ofNat 16 n) = bytesOfNat 2 n := by
  rw [le16_eq_bytesOfNat, BitVec.toNat_ofNat, Nat.mod_eq_of_lt h]

/-- The covered bytes of a frame whose declared length fits its field (R91, R96). -/
theorem frameBody_eq {inst : Option Half} {payload : List Byte} (h : declaredLen inst payload < 65536) (c : Config)
    (k : Kind) (objid : ObjId) :
    frameBody c k objid inst payload
      = [c.syncVal, c.verVal ||| codeOf c k] ++ bytesOfNat 2 (declaredLen inst payload)
          ++ bytesOfNat 4 objid.toNat ++ instField inst ++ payload := by
  rw [frameBody, typeByte, le16_ofNat h, le32_eq_bytesOfNat]

/-- A frame is its covered bytes and their checksum (R100), however the covered bytes are written. -/
theorem frameBytes_of_frameBody {c : Config} {k : Kind} {objid : ObjId} {inst : Option Half} {payload body : List Byte}
    (h : frameBody c k objid inst payload = body) :
    frameBytes c k objid inst payload = body ++ [crc8Block c.crcPoly c.crcInit body] := by
  subst h; rfl

/-- The declared length in format `F8` (R91). -/
theorem declaredLen_none (payload : List Byte) : declaredLen none payload = 8 + payload.length := rfl

/-- The declared length in format `F10` (R91). -/
theorem declaredLen_some (v : Half) (payload : List Byte) : declaredLen (some v) payload = 10 + payload.length := rfl

/-- Settles O40: the bound on the payload is what makes the declared length fit its 16 bits, in either format. -/
theorem frameLayout : Obligations.FrameLayout := by
  intro c k objid payload v hn
  have h8 : declaredLen none payload < 65536 := by rw [declaredLen_none]; omega
  have h10 : declaredLen (some v) payload < 65536 := by rw [declaredLen_some]; omega
  refine ⟨?_, ?_, frameBytes_of_frameBody ?_, frameBytes_of_frameBody ?_⟩
  · rw [length_frameBytes, declaredLen_none]; omega
  · rw [length_frameBytes, declaredLen_some]; omega
  · rw [frameBody_eq h8, declaredLen_none, instField, List.append_nil]
  · rw [frameBody_eq h10, declaredLen_some, instField, le16_eq_bytesOfNat]

/-- Settles O19: the meaning of each reserved code is its refusal, whatever the state. -/
theorem reservedOperationsAreRefused : Obligations.ReservedOperationsAreRefused :=
  fun _ => ⟨rfl, rfl, rfl, rfl⟩

end Sys2Proof.Machine
end

section
/-! The operations on the two running checksums (`spec/40_crc.md`): what each `CRC.*` operation leaves (R134 to R136), and that
the decoder and the encoder commute with another `crc_acc`, the `CRC.*` operations with another `rx_cs` (R137). -/

namespace Sys2Proof.Machine

open Sys2Proof.Claims

/-- `CRC.INIT` behind its guard (R134, R234). -/
theorem exec_crcInit (s : State) :
    exec .crcInit s = whenInitialised s fun s => .next (respond .done { s with crcAcc := s.cfg.crcInit }) := rfl

/-- `CRC.UPD` behind its guard (R135, R234). -/
theorem exec_crcUpd (b : Byte) (s : State) :
    exec (.crcUpd b) s = whenInitialised s fun s => .next (setCrcAcc (crc8Byte s.cfg.crcPoly s.crcAcc b) s) := rfl

/-- `CRC.BLK` behind its guard (R136, R234). -/
theorem exec_crcBlk (bytes : List Byte) (s : State) :
    exec (.crcBlk bytes) s = whenInitialised s fun s => .next (setCrcAcc (crc8Block s.cfg.crcPoly s.crcAcc bytes) s) :=
  rfl

/-- Settles O11: the guard is open, and the next state is the one R134 writes. -/
theorem crcInitLoadsTheInitialValue : Obligations.CrcInitLoadsTheInitialValue := by
  intro s h
  rw [exec_crcInit, whenInitialised_of_true h]; rfl

/-- Settles O12: the guard is open, and `setCrcAcc` writes the fold to both places R135 names. -/
theorem crcUpdFoldsOneByte : Obligations.CrcUpdFoldsOneByte := by
  intro s b h
  rw [exec_crcUpd, whenInitialised_of_true h]; rfl

/-- Settles O13: the guard is open, and `setCrcAcc` writes the fold of the block to both places R136 names. -/
theorem crcBlkFoldsTheBytes : Obligations.CrcBlkFoldsTheBytes := by
  intro s bytes h
  rw [exec_crcBlk, whenInitialised_of_true h]; rfl

/-- The state with another `crc_acc` (R35). -/
def withCrcAcc (v : Byte) (s : State) : State := { s with crcAcc := v }

/-- The state with another `rx_cs` (R23). -/
def withRxCs (v : Byte) (s : State) : State := { s with rx := { s.rx with cs := v } }

/-- A guarded operation commutes with a change of state that leaves the guard alone if the operation itself does. -/
theorem whenInitialised_mapNext {f : State → State} {run : State → Result} {s : State}
    (hi : (f s).initialised = s.initialised) (hr : run (f s) = mapNext f (run s)) :
    whenInitialised (f s) run = mapNext f (whenInitialised s run) := by
  cases h : s.initialised with
  | false => rw [whenInitialised_of_false h, whenInitialised_of_false (hi.trans h)]; rfl
  | true => rw [whenInitialised_of_true h, whenInitialised_of_true (hi.trans h), hr]

section
variable (v b : Byte) (s : State)

/-! No state of the sequencer reads or writes `crc_acc`: the same branch is taken and the same registers are written. -/

theorem stateSync_withCrcAcc : stateSync b (withCrcAcc v s) = withCrcAcc v (stateSync b s) := by
  by_cases h : b = s.cfg.syncVal
  · rw [stateSync_of_eq h, stateSync_of_eq (s := withCrcAcc v s) h]; rfl
  · rw [stateSync_of_ne h, stateSync_of_ne (s := withCrcAcc v s) h]

theorem stateType_withCrcAcc : stateType b (withCrcAcc v s) = withCrcAcc v (stateType b s) := by
  cases h : versionOk s.cfg b with
  | false => rw [stateType_version h, stateType_version (s := withCrcAcc v s) h]; rfl
  | true =>
    cases hk : kindOf s.cfg b with
    | none => rw [stateType_kind h hk, stateType_kind (s := withCrcAcc v s) h hk]; rfl
    | some k => rw [stateType_accept h hk, stateType_accept (s := withCrcAcc v s) h hk]; rfl

theorem stateSize_withCrcAcc : stateSize b (withCrcAcc v s) = withCrcAcc v (stateSize b s) := by
  by_cases h : s.rx.fld = 1
  · cases hr : lenInRange s.cfg (putByte16 s.rx.len b s.rx.fld) with
    | false => rw [stateSize_range h hr, stateSize_range (s := withCrcAcc v s) h hr]; rfl
    | true => rw [stateSize_accept h hr, stateSize_accept (s := withCrcAcc v s) h hr]; rfl
  · rw [stateSize_more h, stateSize_more (s := withCrcAcc v s) h]; rfl

theorem latchLookup_withCrcAcc (r : Option ObjEntry) :
    latchLookup r (withCrcAcc v s) = withCrcAcc v (latchLookup r s) := by
  cases r <;> rfl

theorem objidComplete_withCrcAcc : objidComplete (withCrcAcc v s) = withCrcAcc v (objidComplete s) := by
  cases h : headerFault s.cfg (rxKind s) (objLookup s s.rx.objid) s.rx.count s.rx.len with
  | some cause =>
    rw [objidComplete_fault h, objidComplete_fault (s := withCrcAcc v s) h]
    exact congrArg (countedError cause) (latchLookup_withCrcAcc v s _)
  | none =>
    cases hl : objLookup s s.rx.objid with
    | none =>
      rw [hl] at h
      obtain ⟨hreq, -, -⟩ := headerFault_eq_none h
      have hk : rxKind s = some .objReq := hreq rfl
      rw [hk] at h
      rw [objidComplete_unknown hl hk h, objidComplete_unknown (s := withCrcAcc v s) hl hk h]; rfl
    | some e =>
      rw [hl] at h
      rw [objidComplete_known hl h, objidComplete_known (s := withCrcAcc v s) hl h]; rfl

theorem stateObjId_withCrcAcc : stateObjId b (withCrcAcc v s) = withCrcAcc v (stateObjId b s) := by
  by_cases h : s.rx.fld = 3
  · rw [stateObjId_last h, stateObjId_last (s := withCrcAcc v s) h]
    exact objidComplete_withCrcAcc v { s with rx := objIdRegs b s }
  · rw [stateObjId_more h, stateObjId_more (s := withCrcAcc v s) h]; rfl

theorem stateInstId_withCrcAcc : stateInstId b (withCrcAcc v s) = withCrcAcc v (stateInstId b s) := by
  by_cases h : s.rx.fld = 1
  · rw [stateInstId_last h, stateInstId_last (s := withCrcAcc v s) h]; rfl
  · rw [stateInstId_more h, stateInstId_more (s := withCrcAcc v s) h]; rfl

theorem stateData_withCrcAcc : stateData b (withCrcAcc v s) = mapNext (withCrcAcc v) (stateData b s) := by
  rcases Nat.lt_or_ge s.rx.fld.toNat s.cfg.maxPayload with h | h
  · by_cases hl : s.rx.fld + 1 = s.rx.paylen
    · rw [stateData_last h hl, stateData_last (s := withCrcAcc v s) h hl]; rfl
    · rw [stateData_more h hl, stateData_more (s := withCrcAcc v s) h hl]; rfl
  · rw [stateData_outside h, stateData_outside (s := withCrcAcc v s) h]; rfl

theorem stateCs_withCrcAcc : stateCs b (withCrcAcc v s) = mapNext (withCrcAcc v) (stateCs b s) := by
  by_cases h : b = s.rx.cs
  · cases hc : countConsistent s.rx.count s.rx.len with
    | false => rw [stateCs_count h hc, stateCs_count (s := withCrcAcc v s) h hc]; rfl
    | true =>
      have hk : rxKind (withCrcAcc v s) = rxKind s := rfl
      have hp : (withCrcAcc v s).rxBuf.readFrom 0 (withCrcAcc v s).rx.paylen.toNat
          = s.rxBuf.readFrom 0 s.rx.paylen.toNat := rfl
      rw [stateCs_match h hc, stateCs_match (s := withCrcAcc v s) h hc, hk, hp]
      cases rxKind s with
      | none => rfl
      | some k => cases s.rxBuf.readFrom 0 s.rx.paylen.toNat <;> rfl
  · rw [stateCs_checksum h, stateCs_checksum (s := withCrcAcc v s) h]; rfl

/-- A received byte neither reads nor writes `crc_acc` (R137), whatever state the sequencer is in. -/
theorem rxTake_withCrcAcc : rxTake b (withCrcAcc v s) = mapNext (withCrcAcc v) (rxTake b s) := by
  cases h : s.rxState with
  | sync =>
    rw [rxTake_of_sync h, rxTake_of_sync (s := withCrcAcc v s) h]
    exact congrArg _ (stateSync_withCrcAcc v b (countedInSync s))
  | type =>
    rw [rxTake_of_type h, rxTake_of_type (s := withCrcAcc v s) h]
    exact congrArg _ (stateType_withCrcAcc v b (counted s))
  | size =>
    rw [rxTake_of_size h, rxTake_of_size (s := withCrcAcc v s) h]
    exact congrArg _ (stateSize_withCrcAcc v b (counted s))
  | objid =>
    rw [rxTake_of_objid h, rxTake_of_objid (s := withCrcAcc v s) h]
    exact congrArg _ (stateObjId_withCrcAcc v b (counted s))
  | instid =>
    rw [rxTake_of_instid h, rxTake_of_instid (s := withCrcAcc v s) h]
    exact congrArg _ (stateInstId_withCrcAcc v b (counted s))
  | data =>
    rw [rxTake_of_data h, rxTake_of_data (s := withCrcAcc v s) h]
    exact stateData_withCrcAcc v b (counted s)
  | cs =>
    rw [rxTake_of_cs h, rxTake_of_cs (s := withCrcAcc v s) h]
    exact stateCs_withCrcAcc v b (counted s)

variable (k : Kind) (objid : ObjId) (inst : Option Half) (payload : List Byte)

/-- The five `TX.*` operations are one guarded transmission (R201 to R205). -/
theorem exec_txInstr : exec (txInstr k objid inst payload) s = whenInitialised s (transmit k objid inst payload) := by
  cases k <;> rfl

/-- A transmission neither reads nor writes `crc_acc` (R137): the frame's checksum starts from `CRC_INIT` (R100). -/
theorem transmit_withCrcAcc :
    transmit k objid inst payload (withCrcAcc v s) = mapNext (withCrcAcc v) (transmit k objid inst payload s) := by
  rcases Nat.lt_or_ge s.cfg.maxPayload payload.length with h | h
  · rw [transmit_reject h, transmit_reject (s := withCrcAcc v s) h]; rfl
  · by_cases hm : s.mtu = 0
    · rw [transmit_zeroMtu h hm, transmit_zeroMtu (s := withCrcAcc v s) h hm]; rfl
    · rw [transmit_accept h hm, transmit_accept (s := withCrcAcc v s) h hm]; rfl

end

/-- Settles O14: behind the guard the decoder and the encoder commute with another `crc_acc` branch by branch, and the three
`CRC.*` operations have one branch, in which `rx_cs` does not occur. -/
theorem runningChecksumsAreIndependent : Obligations.RunningChecksumsAreIndependent := by
  intro s v b k objid inst bytes setAcc setRxCs
  refine ⟨?_, ?_, ?_, ?_, ?_⟩
  · exact whenInitialised_mapNext rfl (rxTake_withCrcAcc v b s)
  · rw [exec_txInstr, exec_txInstr]
    exact whenInitialised_mapNext rfl (transmit_withCrcAcc v s k objid inst bytes)
  · rw [exec_crcInit, exec_crcInit]
    exact whenInitialised_mapNext (f := withRxCs v) rfl rfl
  · rw [exec_crcUpd, exec_crcUpd]
    exact whenInitialised_mapNext (f := withRxCs v) rfl rfl
  · rw [exec_crcBlk, exec_crcBlk]
    exact whenInitialised_mapNext (f := withRxCs v) rfl rfl

end Sys2Proof.Machine
end

section
/-! The decoder state by state (`spec/41_decoder.md`): `RX.BYTE` on an initialised instance is the work of the state the
sequencer is in after the prologue, and each way that work can go is the next state the rule of that state writes. -/

namespace Sys2Proof.Machine

/-- `RX.BYTE` behind its guard (R150, R234). -/
theorem exec_rxByte_of_initialised {s : State} (h : s.initialised = true) (b : Byte) :
    exec (.rxByte b) s = rxTake b s :=
  whenInitialised_of_true h (rxTake b)

/-- A type byte whose bits outside the mask are no kind's code is read as no kind. -/
theorem kindOf_eq_none {c : Config} {b : Byte} (h : ∀ k, codeOf c k ≠ b &&& ~~~c.verMask) : kindOf c b = none :=
  Option.eq_none_iff_forall_ne_some.2 fun k hk => h k (codeOf_of_kindOf hk)

theorem versionOk_eq_false {c : Config} {b : Byte} (h : b &&& c.verMask ≠ c.verVal) : versionOk c b = false :=
  Bool.eq_false_iff.2 (mt versionOk_iff.1 h)

theorem lenInRange_eq_false {c : Config} {len : Half} (h : len.toNat < 8 ∨ 10 + c.maxPayload < len.toNat) :
    lenInRange c len = false := by
  rw [Bool.eq_false_iff, Ne, lenInRange_iff]; omega

theorem countConsistent_eq_false {count len : Half} (h : count.toNat ≠ len.toNat + 1) :
    countConsistent count len = false :=
  Bool.eq_false_iff.2 (mt countConsistent_iff.1 h)

/-- After the second byte of the length field the index is 2. -/
theorem sizeRegs_last {s : State} (b : Byte) (h : s.rx.fld = 1) :
    sizeRegs b s = { s.rx with
      cs := crc8Byte s.cfg.crcPoly s.rx.cs b
      len := putByte16 s.rx.len b s.rx.fld
      fld := 2 } := by
  rw [sizeRegs, fld_succ_eq_two.2 h]

/-- A run whose bytes are all known reads as the list of them. -/
theorem Memory.readFrom_of_read {m : Memory} {a : Nat} {bs : List Byte}
    (h : ∀ i, (hi : i < bs.length) → m.read (a + i) = some bs[i]) : m.readFrom a bs.length = some bs := by
  induction bs generalizing a with
  | nil => rfl
  | cons b bs ih =>
    have hb : m.read a = some b := h 0 (Nat.succ_pos _)
    have hbs : m.readFrom (a + 1) bs.length = some bs := ih fun i hi => by
      rw [Nat.add_right_comm]; exact h (i + 1) (Nat.succ_lt_succ hi)
    rw [List.length_cons, Memory.readFrom, hb, hbs]

/-! The header of a frame (R156, R157): the lengths a known object gives it, and what its completion writes. -/

/-- The payload length of a frame about a known object (R156). -/
theorem payLen_some (kind : Option Kind) (e : ObjEntry) :
    payLen kind (some e) = if kind ∈ [some Kind.objReq, some .ack, some .nack] then 0 else e.size.toNat := by
  cases kind with
  | none => rfl
  | some k => cases k <;> rfl

/-- The instance-id bytes of a frame about a known object (R96). -/
theorem instLen_true (single : Bool) : instLen true single = if single then 0 else 2 := by
  cases single <;> rfl

/-- The field after the id of a known object (R157). -/
theorem afterObjId_true (single : Bool) (n : Nat) :
    afterObjId true single n = if single then (if 0 < n then .data else .cs) else .instid :=
  rfl

/-- A header about an unknown object that fails a test is one counted error, the answer latched. -/
theorem objidComplete_unknown_fault {s : State} {cause : Cause} (hl : objLookup s s.rx.objid = none)
    (h : headerFault s.cfg (rxKind s) none s.rx.count s.rx.len = some cause) :
    objidComplete s = countedError cause { s with rx := { s.rx with found := false } } := by
  rw [objidComplete_fault (by rw [hl]; exact h), hl]; rfl

/-- A header about a known object that fails a test is one counted error, the answer latched. -/
theorem objidComplete_known_fault {s : State} {e : ObjEntry} {cause : Cause} (hl : objLookup s s.rx.objid = some e)
    (h : headerFault s.cfg (rxKind s) (some e) s.rx.count s.rx.len = some cause) :
    objidComplete s = countedError cause { s with rx := { s.rx with found := true, single := e.single } } := by
  rw [objidComplete_fault (by rw [hl]; exact h), hl]; rfl

/-- Settles O27: with the oracle's answer fixed, the outcome of the three tests (`headerFault`) decides between the counted
error and the next field. -/
theorem objIdCompletionValidatesTheHeader : Obligations.ObjIdCompletionValidatesTheHeader := by
  intro s rejected
  constructor
  · intro hl regs
    refine ⟨fun hk => ?_, fun hk hc => ?_, fun hk hc => ?_⟩
    · exact objidComplete_unknown_fault hl (headerFault_unknown hk)
    · exact objidComplete_unknown_fault hl (by rw [hk, headerFault_request, if_neg hc])
    · exact objidComplete_unknown hl hk (by rw [headerFault_request, if_pos hc])
  · intro e hl regs n il
    have hn : payLen (rxKind s) (some e) = n := payLen_some (rxKind s) e
    have hil : instLen true e.single = il := instLen_true e.single
    refine ⟨fun hbig => ?_, fun hfit hc => ?_, fun hfit hc => ?_⟩
    · exact objidComplete_known_fault hl (by rw [headerFault_known, hn, if_neg (Nat.not_le.2 hbig)])
    · exact objidComplete_known_fault hl (by rw [headerFault_known, hn, hil, if_pos hfit, if_neg hc])
    · rw [objidComplete_known hl (by rw [headerFault_known, hn, hil, if_pos hfit, if_pos hc]), hn, afterObjId_true]

/-! One theorem a state. The prologue has counted the byte (`counted`), and touches no register a branch condition reads but
`rx_count`. -/

/-- Settles O23: the two branches of R152. -/
theorem syncStateHuntsForTheSyncByte : Obligations.SyncStateHuntsForTheSyncByte := by
  intro s b hi hs
  rw [exec_rxByte_of_initialised hi, rxTake_of_sync hs]
  by_cases hb : b = s.cfg.syncVal
  · rw [stateSync_of_eq (s := countedInSync s) hb, if_pos hb, if_pos hb]; rfl
  · rw [stateSync_of_ne (s := countedInSync s) hb, if_neg hb, if_neg hb, ← hs]; rfl

/-- Settles O24: the three branches of R153, version before kind. -/
theorem typeStateChecksVersionAndKind : Obligations.TypeStateChecksVersionAndKind := by
  intro s b hi hs
  rw [exec_rxByte_of_initialised hi, rxTake_of_type hs]
  refine ⟨fun hv => ?_, fun hv hk => ?_, fun hv hcode => ?_⟩
  · rw [stateType_version (s := counted s) (versionOk_eq_false hv)]; rfl
  · rw [stateType_kind (s := counted s) (versionOk_iff.2 hv) (kindOf_eq_none hk)]; rfl
  · obtain ⟨k, hk⟩ := Option.isSome_iff_exists.1 (kindOf_isSome_iff.2 hcode)
    rw [stateType_accept (s := counted s) (versionOk_iff.2 hv) hk]; rfl

/-- Settles O25: the three branches of R154, the range test only after the second byte. -/
theorem sizeStateAssemblesTheLength : Obligations.SizeStateAssemblesTheLength := by
  intro s b hi hs len
  rw [exec_rxByte_of_initialised hi, rxTake_of_size hs]
  refine ⟨fun hf => ?_, fun hf hr => ?_, fun hf hmin hmax => ?_⟩
  · rw [stateSize_more (s := counted s) hf]; rfl
  · rw [stateSize_range (s := counted s) hf (lenInRange_eq_false hr), sizeRegs_last (s := counted s) b hf]; rfl
  · rw [stateSize_accept (s := counted s) hf (lenInRange_iff.2 ⟨hmin, hmax⟩)]; rfl

/-- Settles O26: the two branches of R155. -/
theorem objIdStateAssemblesTheId : Obligations.ObjIdStateAssemblesTheId := by
  intro s b hi hs t
  rw [exec_rxByte_of_initialised hi, rxTake_of_objid hs]
  refine ⟨fun hf => ?_, fun hf => ?_⟩
  · rw [stateObjId_more (s := counted s) hf]; rfl
  · rw [stateObjId_last (s := counted s) hf]; rfl

/-- Settles O28: the two branches of R158; that the payload is empty is read from the register or from its value. -/
theorem instIdStateAssemblesTheInstance : Obligations.InstIdStateAssemblesTheInstance := by
  intro s b hi hs instid
  rw [exec_rxByte_of_initialised hi, rxTake_of_instid hs]
  refine ⟨fun hf => ?_, fun hf => ?_⟩
  · rw [stateInstId_more (s := counted s) hf]; rfl
  · rw [stateInstId_last (s := counted s) hf]
    by_cases hp : s.rx.paylen = 0
    · have hn : ¬ 0 < (counted s).rx.paylen.toNat := by simp [counted, hp]
      rw [if_neg hn, if_pos hp]; rfl
    · have hn : 0 < (counted s).rx.paylen.toNat := Nat.pos_of_ne_zero fun h => hp (BitVec.eq_of_toNat_eq h)
      rw [if_pos hn, if_neg hp]; rfl

/-- Settles O29: the buffer is the old one with one byte written at `rx_fld` (R60), whichever byte of the payload it is. -/
theorem dataStateStoresThePayload : Obligations.DataStateStoresThePayload := by
  intro s b hi hs hf
  refine ⟨s.rxBuf.write s.rx.fld.toNat b, ?_, Memory.read_write_self _ _ _,
    fun _ ha => Memory.read_write_of_ne _ _ ha⟩
  rw [exec_rxByte_of_initialised hi, rxTake_of_data hs]
  by_cases hl : s.rx.fld + 1 = s.rx.paylen
  · rw [stateData_last (s := counted s) hf hl, if_pos hl]; rfl
  · rw [stateData_more (s := counted s) hf hl, if_neg hl, ← hs]; rfl

/-- Settles O30: the three branches of R160, checksum before count; the run the delivery copies is the payload given byte
by byte. -/
theorem checksumStateDeliversOrCounts : Obligations.ChecksumStateDeliversOrCounts := by
  intro s b hi hs
  rw [exec_rxByte_of_initialised hi, rxTake_of_cs hs]
  refine ⟨fun hb => ?_, fun hb hc => ?_, fun k payload hb hc hk hlen hread => ?_⟩
  · rw [stateCs_checksum (s := counted s) hb]; rfl
  · rw [stateCs_count (s := counted s) hb (countConsistent_eq_false hc)]; rfl
  · have hp : s.rxBuf.readFrom 0 s.rx.paylen.toNat = some payload := by
      rw [← hlen]
      exact Memory.readFrom_of_read fun i hlt => by rw [Nat.zero_add]; exact hread i hlt
    rw [stateCs_deliver (s := counted s) hb (countConsistent_iff.2 hc) hk hp]; rfl

end Sys2Proof.Machine
end

section
/-! The encoder (`spec/42_encoder.md`): the chunks of R206 are greedy, and a transmission fails for an oversize payload
alone (R207). -/

namespace Sys2Proof.Machine

open Sys2Proof.Claims

/-! The greedy split of R206: the size of each chunk, and how many there are. -/

@[simp] theorem chunksOf_nil (fuel mtu : Nat) : chunksOf fuel mtu [] = [] := by
  cases fuel <;> rfl

/-- No chunk is empty, and none is longer than `mtu`. -/
theorem length_of_mem_chunksOf {fuel mtu : Nat} {bs c : List Byte} (hm : mtu ≠ 0) (hc : c ∈ chunksOf fuel mtu bs) :
    1 ≤ c.length ∧ c.length ≤ mtu := by
  induction fuel generalizing bs with
  | zero => cases hc
  | succ n ih =>
    cases bs with
    | nil => cases hc
    | cons b bs =>
      rcases List.mem_cons.1 hc with rfl | hc
      · simp only [List.length_take, List.length_cons]; omega
      · exact ih hc

/-- A member of all but the last of a list is its head, or in all but the last of its tail. -/
theorem eq_or_mem_dropLast_of_mem_dropLast_cons {α : Type} {a x : α} {xs : List α} (h : a ∈ (x :: xs).dropLast) :
    a = x ∨ a ∈ xs.dropLast := by
  cases xs with
  | nil => cases h
  | cons y ys => exact List.mem_cons.1 h

/-- A chunk with bytes behind it is full: a shorter one takes all that is left, and no chunk follows. -/
theorem length_of_mem_dropLast_chunksOf {fuel mtu : Nat} {bs c : List Byte}
    (hc : c ∈ (chunksOf fuel mtu bs).dropLast) : c.length = mtu := by
  induction fuel generalizing bs with
  | zero => cases hc
  | succ n ih =>
    cases bs with
    | nil => cases hc
    | cons b bs =>
      rw [chunksOf] at hc
      rcases Nat.lt_or_ge (b :: bs).length mtu with hlt | hge
      · rw [List.drop_of_length_le hlt.le, chunksOf_nil] at hc
        cases hc
      · rcases eq_or_mem_dropLast_of_mem_dropLast_cons hc with rfl | hc
        · exact List.length_take_of_le hge
        · exact ih hc

/-- Taking up to `m` items off a nonempty supply lowers its size divided by `m`, rounded up, by one. -/
theorem add_pred_div_eq_sub_add_one {n m : Nat} (hn : 0 < n) (hm : 0 < m) :
    (n + m - 1) / m = (n - m + m - 1) / m + 1 := by
  rcases Nat.lt_or_ge n m with h | h
  · rw [Nat.sub_eq_zero_of_le h.le, Nat.zero_add, Nat.div_eq_of_lt (Nat.sub_lt hm Nat.one_pos)]
    exact Nat.div_eq_of_lt_le (by omega) (by omega)
  · rw [Nat.sub_add_cancel h, ← Nat.add_div_right _ hm]
    congr 1; omega

/-- The number of chunks is the number of bytes divided by `mtu`, rounded up. -/
theorem length_chunksOf {fuel mtu : Nat} {bs : List Byte} (hm : 0 < mtu) (h : bs.length ≤ fuel) :
    (chunksOf fuel mtu bs).length = (bs.length + mtu - 1) / mtu := by
  have hnil : (0 + mtu - 1) / mtu = 0 := Nat.div_eq_of_lt (by omega)
  induction fuel generalizing bs with
  | zero =>
    obtain rfl := List.eq_nil_of_length_eq_zero (Nat.le_zero.1 h)
    exact hnil.symm
  | succ n ih =>
    cases bs with
    | nil => exact hnil.symm
    | cons b bs =>
      have hrest : ((b :: bs).drop mtu).length ≤ n := by rw [List.length_drop]; omega
      rw [chunksOf, List.length_cons, ih hrest, List.length_drop,
        add_pred_div_eq_sub_add_one (n := (b :: bs).length) (Nat.succ_pos _) hm]

/-! The two outcomes of a transmission (R207). -/

/-- Settles O38: a transmission that answers `OK` is the accepted one, and its events are the chunks of the frame. -/
theorem chunksAreGreedy : Obligations.ChunksAreGreedy := by
  intro s t k objid inst payload hexec hok
  rw [exec_txInstr] at hexec
  obtain ⟨-, hrun⟩ := whenInitialised_eq_next hexec
  obtain ⟨-, rfl⟩ | ⟨-, hm, rfl⟩ := transmit_eq_next hrun
  · cases hok
  · have hmtu : s.mtu.toNat ≠ 0 := fun h => hm (BitVec.eq_of_toNat_eq h)
    have hflat := flatten_chunksOf hmtu (Nat.le_refl (frameBytes s.cfg k objid inst payload).length)
    refine ⟨_, rfl, hflat, fun c => length_of_mem_chunksOf hmtu, fun c => length_of_mem_dropLast_chunksOf, ?_⟩
    rw [hflat]
    exact length_chunksOf (Nat.pos_of_ne_zero hmtu) (Nat.le_refl _)

/-- Settles O39: behind the open guard the payload's length alone decides between the two outcomes. -/
theorem oversizePayloadFails : Obligations.OversizePayloadFails := by
  intro s k objid inst payload hi
  rw [exec_txInstr, whenInitialised_of_true hi]
  exact ⟨fun hp => transmit_reject hp, fun hm hp => ⟨_, transmit_accept hp hm, rfl⟩⟩

end Sys2Proof.Machine
end

section
/-! Control and statistics (`spec/43_control_stats.md`): what the two `STAT.*` operations leave (R231, R232), and the commands
the block gives no meaning to (R234). -/

namespace Sys2Proof.Machine

open Sys2Proof.Claims

/-- `STAT.GET` behind its guard (R231, R234). -/
theorem exec_statGet (s : State) :
    exec .statGet s = whenInitialised s fun s => .next (respond (.counters s.stats) s) := rfl

/-- `STAT.RESET` behind its guard (R232, R234). -/
theorem exec_statReset (s : State) :
    exec .statReset s = whenInitialised s fun s => .next (respond .done { s with stats := Stats.zero }) := rfl

/-- Settles O17: the guard is open, and the response is the one thing R231 writes. -/
theorem statGetReturnsTheCounters : Obligations.StatGetReturnsTheCounters := by
  intro s h
  rw [exec_statGet, whenInitialised_of_true h]; rfl

/-- Settles O18: the guard is open, and R232 writes the counters and the response. -/
theorem statResetClearsTheCounters : Obligations.StatResetClearsTheCounters := by
  intro s h
  rw [exec_statReset, whenInitialised_of_true h]; rfl

/-- `INIT` with `mtu = 0` is refused, initialised or not (R230). -/
theorem exec_init_zero (s : State) : exec (.init 0) s = .refused .zeroMtu := rfl

/-- The rows of the four reserved operation codes (R112). -/
def reservedOps : List Op := [.reservedOp7, .reservedOpD, .reservedOpE, .reservedOpF]

/-- A row of `reservedOps` has one instruction, and its meaning is the refusal of its code. -/
theorem exec_of_op_mem_reservedOps {i : Instr} (h : i.op ∈ reservedOps) (s : State) :
    ∃ code, exec i s = .refused (.reservedOperation code) := by
  obtain ⟨h7, hD, hE, hF⟩ := reservedOperationsAreRefused s
  cases i with
  | reservedOp7 => exact ⟨_, h7⟩
  | reservedOpD => exact ⟨_, hD⟩
  | reservedOpE => exact ⟨_, hE⟩
  | reservedOpF => exact ⟨_, hF⟩
  | _ => simp [Instr.op, reservedOps] at h

/-- Every instruction but `INIT` and the reserved codes, the frame rows included, runs behind the guard of R234. -/
theorem exec_eq_whenInitialised {i : Instr} (hinit : i.op ≠ .init) (hres : i.op ∉ reservedOps) :
    ∃ run, ∀ s, exec i s = whenInitialised s run := by
  cases i with
  | init => exact absurd rfl hinit
  | reservedOp7 | reservedOpD | reservedOpE | reservedOpF => simp [Instr.op, reservedOps] at hres
  | _ => exact ⟨_, fun _ => rfl⟩

/-- The operations that need an `INIT` before them are neither `INIT` nor reserved codes. -/
theorem of_mem_guardedOps : ∀ o ∈ guardedOps, o ≠ .init ∧ o ∉ reservedOps := by decide

/-- Settles O20: a reserved code by its row, `INIT` by its operand, and every other operation by the closed guard. -/
theorem commandsWithoutMeaningAreRefused : Obligations.CommandsWithoutMeaningAreRefused := by
  intro s i
  refine ⟨fun h => exec_of_op_mem_reservedOps h s, exec_init_zero s, fun hs h => ?_⟩
  obtain ⟨hinit, hres⟩ := of_mem_guardedOps i.op h
  obtain ⟨run, hrun⟩ := exec_eq_whenInitialised hinit hres
  rw [hrun, whenInitialised_of_false hs]

end Sys2Proof.Machine
end

section
/-! Reset (`spec/70_reset_and_hazards.md`): the values the spec gives to the state after reset (R340, R341). -/

namespace Sys2Proof.Machine

open Sys2Proof.Claims

/-- Settles O15: `State.reset` writes each of the four values, `crc_acc` from the parameters it also installs. -/
theorem resetValues : Obligations.ResetValues :=
  ⟨rfl, rfl, rfl, rfl⟩

end Sys2Proof.Machine
end

section
/-! The words of the command port (`spec/30_encoding.md`, section 3): what each operand format reads is a run of bytes of the
length it writes, whatever follows it. From that both directions of the encoding, and what a step runs. -/

namespace Sys2Proof

/-! Writing, then reading: each format reads back the fields it writes (R113). -/

theorem decodePrefix_of_parseOperands {o : Op} {bs rest : List Byte} {a : Operands}
    (h : parseOperands o.format bs = .ok (a, rest)) : decodePrefix (o.word :: bs) = .ok (o.build a, rest) := by
  simp only [decodePrefix, Op.ofWord_word, h]

theorem decode_of_decodePrefix {word : List Byte} {i : Instr} (h : decodePrefix word = .ok (i, [])) :
    decode word = .ok i := by
  simp only [decode, h]

/-- A 16-bit field comes back from its bytes. -/
theorem ofNat_natOfBytes_half (v : Half) : BitVec.ofNat 16 (natOfBytes (bytesOfNat 2 v.toNat)) = v := by
  rw [natOfBytes_bytesOfNat v.isLt, BitVec.ofNat_toNat, BitVec.setWidth_eq]

/-- A 32-bit field comes back from its bytes. -/
theorem ofNat_natOfBytes_objId (v : ObjId) : BitVec.ofNat 32 (natOfBytes (bytesOfNat 4 v.toNat)) = v := by
  rw [natOfBytes_bytesOfNat v.isLt, BitVec.ofNat_toNat, BitVec.setWidth_eq]

theorem parseOperands_b (b : Byte) : parseOperands .b [b] = .ok ({ b := b }, []) := by
  simp [parseOperands, takeBytes, natOfBytes]

theorem parseOperands_m (mtu : Half) : parseOperands .m (bytesOfNat 2 mtu.toNat) = .ok ({ mtu := mtu }, []) := by
  have h : takeBytes 2 (bytesOfNat 2 mtu.toNat) = some (bytesOfNat 2 mtu.toNat, []) := by
    simpa using takeBytes_append (bytesOfNat 2 mtu.toNat) [] (length_bytesOfNat _ _)
  simp only [parseOperands, h, ofNat_natOfBytes_half]

/-- Format `S` with nothing behind it. -/
theorem parseCounted_countedBytes_nil {bytes : List Byte} (h : countFits bytes = true) :
    parseCounted (countedBytes bytes) = .ok (bytes, []) := by
  simpa using parseCounted_countedBytes (of_decide_eq_true h) []

theorem parseOperands_s {bytes : List Byte} (h : countFits bytes = true) :
    parseOperands .s (countedBytes bytes) = .ok ({ bytes := bytes }, []) := by
  simp only [parseOperands, parseCounted_countedBytes_nil h]

/-- The bytes of `has_inst` and `instid` (log 1). -/
def instOperandBytes : Option Half → List Byte
  | none => [0x00, 0x00, 0x00]
  | some v => 0x01 :: bytesOfNat 2 v.toNat

theorem frameOperandBytes_eq (objid : ObjId) (inst : Option Half) (payload : List Byte) :
    frameOperandBytes objid inst payload
      = bytesOfNat 4 objid.toNat ++ (instOperandBytes inst ++ countedBytes payload) := by
  cases inst <;> simp [frameOperandBytes, instOperandBytes]

theorem parseTail_instOperandBytes {payload : List Byte} (h : countFits payload = true) (objid : ObjId)
    (inst : Option Half) :
    parseTail objid (instOperandBytes inst ++ countedBytes payload)
      = .ok ({ objid := objid, inst := inst, bytes := payload }, []) := by
  have hp := parseCounted_countedBytes_nil h
  cases inst with
  | none => simp [parseTail, instOperandBytes, takeBytes, natOfBytes, hp]
  | some v =>
    have ht : takeBytes 2 (bytesOfNat 2 v.toNat ++ countedBytes payload)
        = some (bytesOfNat 2 v.toNat, countedBytes payload) := takeBytes_append _ _ (length_bytesOfNat _ _)
    simp [parseTail, instOperandBytes, takeBytes, natOfBytes, ht, hp, ofNat_natOfBytes_half]

theorem parseOperands_t {payload : List Byte} (h : countFits payload = true) (objid : ObjId) (inst : Option Half) :
    parseOperands .t (frameOperandBytes objid inst payload)
      = .ok ({ objid := objid, inst := inst, bytes := payload }, []) := by
  rw [frameOperandBytes_eq, parseOperands, takeBytes_append _ _ (length_bytesOfNat _ _)]
  simp only [ofNat_natOfBytes_objId, parseTail_instOperandBytes h]

/-- Settles O2: the word names the row, and the row's format reads back its fields; the bound of `Instr.wf` is that of the
count `n`. -/
theorem decodeOfEncodeIsTheInstruction : Obligations.DecodeOfEncodeIsTheInstruction := by
  intro i h
  refine decode_of_decodePrefix ?_
  cases i with
  | init mtu => exact decodePrefix_of_parseOperands (o := .init) (parseOperands_m mtu)
  | rxByte b => exact decodePrefix_of_parseOperands (o := .rxByte) (parseOperands_b b)
  | crcUpd b => exact decodePrefix_of_parseOperands (o := .crcUpd) (parseOperands_b b)
  | crcBlk bytes => exact decodePrefix_of_parseOperands (o := .crcBlk) (parseOperands_s h)
  | txObj objid inst payload => exact decodePrefix_of_parseOperands (o := .txObj) (parseOperands_t h objid inst)
  | txObjReq objid inst payload => exact decodePrefix_of_parseOperands (o := .txObjReq) (parseOperands_t h objid inst)
  | txObjAck objid inst payload => exact decodePrefix_of_parseOperands (o := .txObjAck) (parseOperands_t h objid inst)
  | txAck objid inst payload => exact decodePrefix_of_parseOperands (o := .txAck) (parseOperands_t h objid inst)
  | txNack objid inst payload => exact decodePrefix_of_parseOperands (o := .txNack) (parseOperands_t h objid inst)
  | frameObj objid inst payload => exact decodePrefix_of_parseOperands (o := .frameObj) (parseOperands_t h objid inst)
  | frameObjReq objid inst payload =>
    exact decodePrefix_of_parseOperands (o := .frameObjReq) (parseOperands_t h objid inst)
  | frameObjAck objid inst payload =>
    exact decodePrefix_of_parseOperands (o := .frameObjAck) (parseOperands_t h objid inst)
  | frameAck objid inst payload => exact decodePrefix_of_parseOperands (o := .frameAck) (parseOperands_t h objid inst)
  | frameNack objid inst payload => exact decodePrefix_of_parseOperands (o := .frameNack) (parseOperands_t h objid inst)
  | crcInit | statGet | statReset | reservedOp7 | reservedOpD | reservedOpE | reservedOpF | frameReservedKind5
    | frameReservedKind6 | frameReservedKind7 => rfl

/-! Reading: what a parser takes is a run of bytes of a length its result fixes, and what stands behind the run is not read. -/

/-- The parser `parse` read `a` off `bs` and left `rest`: it took a run of `n` bytes, and it takes that run whatever stands
behind it. -/
def Reads {α : Type} (parse : List Byte → Except DecodeError (α × List Byte)) (a : α) (n : Nat) (bs rest : List Byte) :
    Prop :=
  ∃ run, bs = run ++ rest ∧ run.length = n ∧ ∀ more, parse (run ++ more) = .ok (a, more)

/-- The number of bytes a format's fields take (R113, log 1). -/
def Format.width : Format → Operands → Nat
  | .z, _ => 0
  | .b, _ => 1
  | .m, _ => 2
  | .s, a => 2 + a.bytes.length
  | .t, a => 9 + a.bytes.length

theorem reads_parseCounted {bs bytes rest : List Byte} (h : parseCounted bs = .ok (bytes, rest)) :
    bytes.length < 65536 ∧ Reads parseCounted bytes (2 + bytes.length) bs rest := by
  unfold parseCounted at h
  split at h
  · cases h
  · next n bs' h1 =>
    split at h
    · cases h
    · next r h2 =>
      cases h
      obtain ⟨rfl, hn⟩ := takeBytes_eq_some h1
      obtain ⟨rfl, hlen⟩ := takeBytes_eq_some h2
      have hlt : natOfBytes n < 256 ^ 2 := hn ▸ natOfBytes_lt n
      refine ⟨by omega, n ++ bytes, by simp, by simp [hn], fun more => ?_⟩
      rw [parseCounted, List.append_assoc, takeBytes_append _ _ hn]
      simp only [takeBytes_append _ _ hlen]

theorem reads_parseTail {objid : ObjId} {bs rest : List Byte} {a : Operands} (h : parseTail objid bs = .ok (a, rest)) :
    a.bytes.length < 65536 ∧ Reads (parseTail objid) a (5 + a.bytes.length) bs rest := by
  unfold parseTail at h
  split at h
  · cases h
  · next hb bs1 h1 =>
    split at h
    · cases h
    · next ib bs2 h2 =>
      dsimp only at h
      split at h
      · cases h
      · next hbit =>
        split at h
        · cases h
        · next payload rest' h3 =>
          cases h
          obtain ⟨rfl, hb1⟩ := takeBytes_eq_some h1
          obtain ⟨rfl, ib2⟩ := takeBytes_eq_some h2
          obtain ⟨hlen, run, rfl, hrun, hread⟩ := reads_parseCounted h3
          refine ⟨hlen, hb ++ ib ++ run, by simp, by simp [hb1, ib2, hrun]; omega, fun more => ?_⟩
          rw [parseTail, List.append_assoc, List.append_assoc, takeBytes_append _ _ hb1]
          dsimp only
          rw [takeBytes_append _ _ ib2]
          simp only [if_neg hbit, hread]

theorem reads_parseOperands {f : Format} {bs rest : List Byte} {a : Operands}
    (h : parseOperands f bs = .ok (a, rest)) :
    a.bytes.length < 65536 ∧ Reads (parseOperands f) a (f.width a) bs rest := by
  cases f with
  | z => cases h; exact ⟨by simp, [], rfl, rfl, fun _ => rfl⟩
  | b =>
    simp only [parseOperands] at h
    split at h
    · cases h
    · next run rest' h1 =>
      cases h
      obtain ⟨rfl, hrun⟩ := takeBytes_eq_some h1
      exact ⟨by simp, run, rfl, hrun, fun more => by simp only [parseOperands, takeBytes_append _ _ hrun]⟩
  | m =>
    simp only [parseOperands] at h
    split at h
    · cases h
    · next run rest' h1 =>
      cases h
      obtain ⟨rfl, hrun⟩ := takeBytes_eq_some h1
      exact ⟨by simp, run, rfl, hrun, fun more => by simp only [parseOperands, takeBytes_append _ _ hrun]⟩
  | s =>
    simp only [parseOperands] at h
    split at h
    · cases h
    · next bytes rest' h1 =>
      cases h
      obtain ⟨hlen, run, rfl, hrun, hread⟩ := reads_parseCounted h1
      exact ⟨hlen, run, rfl, hrun, fun more => by simp only [parseOperands, hread]⟩
  | t =>
    simp only [parseOperands] at h
    split at h
    · cases h
    · next o bs' h1 =>
      obtain ⟨rfl, ho⟩ := takeBytes_eq_some h1
      obtain ⟨hlen, run, rfl, hrun, hread⟩ := reads_parseTail h
      refine ⟨hlen, o ++ run, by simp, by simp [ho, hrun, Format.width]; omega, fun more => ?_⟩
      rw [parseOperands, List.append_assoc, takeBytes_append _ _ ho]
      exact hread more

theorem length_frameOperandBytes (objid : ObjId) (inst : Option Half) (payload : List Byte) :
    (frameOperandBytes objid inst payload).length = 9 + payload.length := by
  cases inst <;> simp [frameOperandBytes, countedBytes] <;> omega

/-- An instruction's encoding has its row's word and then the fields of its format. -/
theorem length_encode_build (o : Op) (a : Operands) : (encode (o.build a)).length = 1 + o.format.width a := by
  cases o <;>
    simp [encode, Op.build, Instr.operandBytes, Op.format, Format.width, countedBytes, length_frameOperandBytes] <;> omega

/-- A byte list that its count can count makes a well-formed instruction of any row. -/
theorem wf_build {a : Operands} (h : a.bytes.length < 65536) (o : Op) : (o.build a).wf = true := by
  have h' : countFits a.bytes = true := decide_eq_true h
  cases o with
  | crcBlk | txObj | txObjReq | txObjAck | txAck | txNack | frameObj | frameObjReq | frameObjAck | frameAck
    | frameNack => exact h'
  | _ => rfl

/-- The instruction at the head of a byte list is well formed and takes a run as long as its encoding. -/
theorem reads_decodePrefix {bs rest : List Byte} {i : Instr} (h : decodePrefix bs = .ok (i, rest)) :
    i.wf = true ∧ Reads decodePrefix i (encode i).length bs rest := by
  cases bs with
  | nil => cases h
  | cons first bs =>
    simp only [decodePrefix] at h
    split at h
    · cases h
    · next o ho =>
      split at h
      · cases h
      · next a rest' ha =>
        cases h
        obtain ⟨hlen, run, rfl, hrun, hread⟩ := reads_parseOperands ha
        obtain rfl := Op.word_of_ofWord ho
        refine ⟨wf_build hlen o, o.word :: run, rfl, ?_, fun more => decodePrefix_of_parseOperands (hread more)⟩
        rw [length_encode_build, List.length_cons, hrun, Nat.add_comm]

theorem decodePrefix_of_decode {word : List Byte} {i : Instr} (h : decode word = .ok i) :
    decodePrefix word = .ok (i, []) := by
  unfold decode at h
  split at h
  · cases h
  · next i' h' => cases h; exact h'
  · cases h

/-- Settles O3: a whole word is the run its instruction takes, with nothing behind it. -/
theorem decodedWordsAreWellFormed : Obligations.DecodedWordsAreWellFormed := by
  intro word i h
  obtain ⟨hwf, run, rfl, hlen, -⟩ := reads_decodePrefix (decodePrefix_of_decode h)
  exact ⟨hwf, by rw [List.append_nil, hlen]⟩

/-- Settles O1: the decoder run on each of the nine written-out words. -/
theorem decoderReadsWrittenOutWords : Obligations.DecoderReadsWrittenOutWords :=
  ⟨rfl, rfl, rfl, rfl, rfl, rfl, rfl, rfl, rfl⟩

/-- Settles O4: a word reads back as its one row (`Op.ofWord_word`), and a row that is read has that word. -/
theorem everyFirstByteHasOneRow : Obligations.EveryFirstByteHasOneRow := by
  refine ⟨fun o o' h => ?_, fun b rest hb => ?_⟩
  · have h' : some o = some o' := by rw [← Op.ofWord_word o, h, Op.ofWord_word]
    exact Option.some.inj h'
  · have hnone : Op.ofWord b = none := Option.eq_none_iff_forall_ne_some.2 fun o ho => hb o (Op.word_of_ofWord ho)
    simp only [decode, decodePrefix, hnone]

/-- A table word's command is the run its instruction takes. -/
theorem decode_commandOfTableWord {nbits w : Nat} {i : Instr} (h : decodeTableWord nbits w = some i) :
    decode (Machine.commandOfTableWord nbits w) = .ok i := by
  unfold decodeTableWord at h
  split at h
  · cases h
  · next j rest hj =>
    cases h
    obtain ⟨-, run, hrun, hlen, hread⟩ := reads_decodePrefix hj
    simp only [Machine.commandOfTableWord, hj]
    rw [hrun, List.take_left' hlen]
    exact decode_of_decodePrefix (by simpa using hread [])

end Sys2Proof
end

section
/-! One step (R67, R254, R340): which input it takes, and what the input taken runs. -/

namespace Sys2Proof.Machine

open Sys2Proof.Claims

/-! Which inputs wait for Object Dispatch. -/

/-- The instructions that stand for received bytes are those of the receive role's rows (R72). -/
theorem isSome_receivedBytes_iff (c : Config) (i : Instr) :
    (receivedBytes c i).isSome = true ↔ i.op ∈ Op.rxByte :: frameOps := by
  cases i <;> simp [receivedBytes, Instr.op, frameOps]

theorem isReceive_iff (c : Config) (j : Input) : j.isReceive c = true ↔ isReceive j := by
  cases j with
  | move m => exact ⟨fun h => absurd h Bool.false_ne_true, fun ⟨_, _, h, _⟩ => Input.noConfusion h⟩
  | command word =>
    constructor
    · intro h
      simp only [Input.isReceive] at h
      split at h
      · cases h
      · next i hd => exact ⟨word, i, rfl, hd, (isSome_receivedBytes_iff c i).1 h⟩
    · rintro ⟨_, i, hj, hd, hi⟩
      cases hj
      simp only [Input.isReceive, hd]
      exact (isSome_receivedBytes_iff c i).2 hi

theorem replying_iff (s : State) : replying s = true ↔ ∃ t ∈ s.env.tasks, t.role = .reply := by
  rw [← Bool.not_eq_false, replying_eq_false_iff]
  simp

theorem receiveHeld_iff (s : State) : receiveHeld s = true ↔ dispatchBusy s := by
  unfold receiveHeld dispatchBusy nextDeliver
  cases ha : s.env.attached with
  | false => simp
  | true => simp [replying_iff, Option.isSome_iff_ne_none]

theorem inputHeld_iff (s : State) (j : Input) : inputHeld s j = true ↔ dispatchBusy s ∧ isReceive j := by
  rw [inputHeld, Bool.and_eq_true, receiveHeld_iff, isReceive_iff]

/-- The input that need not wait is the one taken, with the waiting ones before it left in place. -/
theorem takeInput_of_takesNext {s : State} {j : Input} {rest : List Input} (h : takesNext s j rest) :
    takeInput s s.inputs = some (j, rest) := by
  obtain ⟨held, others, hin, rfl, hheld, hj⟩ := h
  have hj' : inputHeld s j = false := Bool.eq_false_iff.2 (mt (inputHeld_iff s j).1 hj)
  rw [hin, takeInput_append fun i hi => (inputHeld_iff s i).2 (hheld i hi), takeInput_of_not_held hj']
  rfl

theorem step_of_takesNext {s : State} {j : Input} {rest : List Input} (h : takesNext s j rest) :
    step s = runInput j { s with inputs := rest } := by
  simp only [step, takeInput_of_takesNext h]

/-- With every input waiting there is nothing to take. -/
theorem takeInput_of_all_held {s : State} {l : List Input} (h : ∀ j ∈ l, inputHeld s j = true) :
    takeInput s l = none := by
  have hall := takeInput_append h []
  rw [List.append_nil] at hall
  exact hall

/-- What the machine does when it takes no input, or takes one. -/
theorem step_cases (s : State) :
    step s = .next s ∨ ∃ j rest, inputHeld s j = false ∧ step s = runInput j { s with inputs := rest } := by
  have htake : ∀ l j rest, takeInput s l = some (j, rest) → inputHeld s j = false := by
    intro l
    induction l with
    | nil => intro j rest h; cases h
    | cons a l ih =>
      intro j rest h
      rw [takeInput] at h
      split at h
      · split at h
        · cases h
        · next h' => cases h; exact ih _ _ h'
      · next ha => cases h; exact Bool.eq_false_iff.2 ha
  unfold step
  split
  · exact .inl rfl
  · next j rest h => exact .inr ⟨j, rest, htake _ _ _ h, rfl⟩

/-! What a command word runs. -/

/-- A command is run whole unless it is a frame row on an initialised instance with Object Dispatch connected. -/
theorem splitFrame_eq_none {s : State} {i : Instr}
    (h : s.env.attached = false ∨ s.initialised = false ∨ i.op ∉ frameOps) : splitFrame s i = none := by
  unfold splitFrame
  split
  · next hsplit =>
    simp only [Bool.and_eq_true, bne_iff_ne] at hsplit
    obtain ⟨⟨ha, hinit⟩, hop⟩ := hsplit
    have hnot : i.op ∉ frameOps := by simpa [ha, hinit] using h
    rw [← Option.not_isSome_iff_eq_none, isSome_receivedBytes_iff]
    exact List.not_mem_cons_of_ne_of_not_mem hop hnot
  · rfl

theorem runCommand_of_decode {word : List Byte} {i : Instr} (h : decode word = .ok i) (s : State) :
    runCommand word s = runInstr i s := by
  simp only [runCommand, h]

theorem runInstr_whole {s : State} {i : Instr}
    (h : s.env.attached = false ∨ s.initialised = false ∨ i.op ∉ frameOps) : runInstr i s = exec i s := by
  simp only [runInstr, splitFrame_eq_none h]

/-- A frame row on an initialised instance with Object Dispatch connected becomes its `RX.BYTE` commands. -/
theorem runInstr_split {s : State} {i : Instr} {bytes : List Byte} (ha : s.env.attached = true)
    (hi : s.initialised = true) (hop : i.op ≠ .rxByte) (hb : receivedBytes s.cfg i = some bytes) :
    runInstr i s = .next { s with inputs := rxCommands bytes ++ s.inputs } := by
  have h : splitFrame s i = some bytes := by simp [splitFrame, ha, hi, hop, hb]
  simp only [runInstr, h]

theorem receivedBytes_frameInstr (c : Config) (k : Kind) (objid : ObjId) (inst : Option Half) (payload : List Byte) :
    receivedBytes c (frameInstr k objid inst payload) = some (emittedBytes c k objid inst payload) := by
  cases k <;> rfl

theorem op_frameInstr_ne_rxByte (k : Kind) (objid : ObjId) (inst : Option Half) (payload : List Byte) :
    (frameInstr k objid inst payload).op ≠ .rxByte := by
  cases k <;> simp [frameInstr, Instr.op]

theorem emittedBytes_eq (c : Config) (k : Kind) (objid : ObjId) (inst : Option Half) (payload : List Byte) :
    emittedBytes c k objid inst payload
      = if payload.length ≤ c.maxPayload then frameBytes c k objid inst payload else [] := by
  simp [emittedBytes, payloadFits]

/-- The rows of the reserved kind codes stand for their two bytes (log 13). -/
theorem receivedBytes_reservedKind {i : Instr} {code : Byte}
    (h : (i.op, code) ∈ [(Op.frameReservedKind5, (5 : Byte)), (.frameReservedKind6, 6), (.frameReservedKind7, 7)])
    (c : Config) : i.op ≠ .rxByte ∧ receivedBytes c i = some [c.syncVal, c.verVal ||| code] := by
  cases i with
  | frameReservedKind5 | frameReservedKind6 | frameReservedKind7 =>
    obtain rfl : code = _ := by simpa [Instr.op] using h
    exact ⟨by simp [Instr.op], rfl⟩
  | _ => simp [Instr.op] at h

/-- Settles O5: `takesNext` is what `takeInput` computes, and the input taken is run by its kind. -/
theorem stepRunsTheNextInput : Obligations.StepRunsTheNextInput := by
  intro s
  refine ⟨?_, ?_, ?_, ?_, ?_, ?_⟩
  · intro word rest i hnext hd hwhole
    rw [step_of_takesNext hnext, runInput, runCommand_of_decode hd, runInstr_whole (s := { s with inputs := rest }) hwhole]
  · intro word rest k objid inst payload hnext hd ha hi
    rw [step_of_takesNext hnext, runInput, runCommand_of_decode hd,
      runInstr_split (s := { s with inputs := rest }) ha hi (op_frameInstr_ne_rxByte k objid inst payload)
        (receivedBytes_frameInstr _ k objid inst payload),
      emittedBytes_eq]
  · intro word rest i code hnext hd hcode ha hi
    obtain ⟨hop, hb⟩ := receivedBytes_reservedKind hcode s.cfg
    rw [step_of_takesNext hnext, runInput, runCommand_of_decode hd, 
      runInstr_split (s := { s with inputs := rest }) ha hi hop hb]
  · intro word rest e hnext hd
    rw [step_of_takesNext hnext]
    simp only [runInput, runCommand, hd]
  · intro m rest hnext
    rw [step_of_takesNext hnext, runInput]
  · intro hheld
    simp only [step, takeInput_of_all_held fun j hj => (inputHeld_iff s j).2 (hheld j hj)]

/-- Settles O6: with Object Dispatch not connected nothing waits and no row is split, so the word placed first is run whole. -/
theorem fetchWordRunsTheTableWord : Obligations.FetchWordRunsTheTableWord := by
  intro s nbits w i h
  have hidle : ¬ dispatchBusy (s.withFetchWord nbits w) := fun hb => Bool.false_ne_true hb.1
  have hnext : takesNext (s.withFetchWord nbits w) (.command (commandOfTableWord nbits w)) s.inputs :=
    ⟨[], s.inputs, rfl, rfl, fun _ hj => (List.not_mem_nil hj).elim, fun hj => hidle hj.1⟩
  rw [step_of_takesNext hnext, runInput, runCommand_of_decode (decode_commandOfTableWord h), runInstr_whole (.inl rfl)]
  rfl

end Sys2Proof.Machine
end

section
/-! The checksum (`spec/40_crc.md`, section 1): one round is linear over exclusive-or, and with an odd polynomial it loses
nothing. Eight rounds inherit both, and so do a block's. -/

namespace Sys2Proof.Machine

/-- Settles O7: by induction on the first block. -/
theorem checksumIsIncremental : Obligations.ChecksumIsIncremental := by
  intro poly c xs ys
  induction xs generalizing c with
  | nil => rfl
  | cons x xs ih => exact ih (crc8Byte poly c x)

/-- One round is linear (R133). -/
theorem crcRound_xor (poly x y : Byte) : crcRound poly (x ^^^ y) = crcRound poly x ^^^ crcRound poly y := by
  have hmsb : (x ^^^ y).msb = (x.msb ^^ y.msb) := BitVec.msb_xor
  have hshift : (x ^^^ y) <<< 1 = x <<< 1 ^^^ y <<< 1 := BitVec.shiftLeft_xor_distrib x y 1
  unfold crcRound
  rw [hmsb, hshift]
  cases x.msb <;> cases y.msb <;> grind

/-- Any number of rounds is linear. -/
theorem repeat_crcRound_xor (poly x y : Byte) (n : Nat) :
    Nat.repeat (crcRound poly) n (x ^^^ y) = Nat.repeat (crcRound poly) n x ^^^ Nat.repeat (crcRound poly) n y := by
  induction n with
  | zero => rfl
  | succ n ih => rw [Nat.repeat, ih, crcRound_xor]; rfl

/-- Settles O8: a fold begins with `c ^ b`, and its eight rounds are linear, so zero goes to zero. -/
theorem checksumByteIsLinear : Obligations.ChecksumByteIsLinear := by
  intro poly c b x y
  have hfold : ∀ v, crc8Byte poly 0 v = Nat.repeat (crcRound poly) 8 v := fun v => by
    simp [crc8Byte]
  have hzero : Nat.repeat (crcRound poly) 8 0 = 0 := by
    simpa using repeat_crcRound_xor poly 0 0 8
  refine ⟨?_, ?_, ?_⟩
  · rw [hfold, crc8Byte]
  · rw [hfold, hfold, hfold, repeat_crcRound_xor]
  · rw [crc8Byte, BitVec.xor_self]; exact hzero

/-- With an odd polynomial the lowest bit of a round's result is the highest bit it shifted out. -/
theorem getLsbD_zero_crcRound {poly : Byte} (h : poly.getLsbD 0 = true) (v : Byte) :
    (crcRound poly v).getLsbD 0 = v.msb := by
  unfold crcRound
  cases v.msb <;> simp [h]

/-- With an odd polynomial a round is injective: its lowest bit says whether the polynomial was folded in, and without it the
result is the argument shifted, the bit shifted out being known. -/
theorem crcRound_injective {poly : Byte} (h : poly.getLsbD 0 = true) : Function.Injective (crcRound poly) := by
  intro x y hxy
  have hmsb : x.msb = y.msb := by rw [← getLsbD_zero_crcRound h x, hxy, getLsbD_zero_crcRound h y]
  have hshift : x <<< 1 = y <<< 1 := by
    unfold crcRound at hxy
    rw [hmsb] at hxy
    cases hy : y.msb with
    | false => simpa [hy] using hxy
    | true => simpa [hy] using hxy
  refine BitVec.eq_of_getLsbD_eq fun i hi => ?_
  rcases Nat.lt_or_ge (i + 1) 8 with hlt | hge
  · have hbit := congrArg (fun v => BitVec.getLsbD v (i + 1)) hshift
    simpa [hlt, hi] using hbit
  · obtain rfl : i = 7 := by omega
    exact hmsb

theorem crc8Byte_injective {poly : Byte} (h : poly.getLsbD 0 = true) {c c' b b' : Byte}
    (heq : crc8Byte poly c b = crc8Byte poly c' b') : c ^^^ b = c' ^^^ b' := by
  have hrep : ∀ n, Function.Injective (Nat.repeat (crcRound poly) n) := fun n => by
    induction n with
    | zero => exact fun _ _ hxy => hxy
    | succ n ih => exact fun _ _ hxy => ih (crcRound_injective h hxy)
  exact hrep 8 heq

/-- Settles O9: eight rounds are injective in `c ^ b`, and exclusive-or cancels on either side. -/
theorem checksumByteIsInjective : Obligations.ChecksumByteIsInjective := by
  intro poly h c c' b b'
  exact ⟨fun heq => (BitVec.xor_right_inj c).1 (crc8Byte_injective h heq),
    fun heq => (BitVec.xor_left_inj b).1 (crc8Byte_injective h heq)⟩

/-- With an odd polynomial two running values stay apart over any block. -/
theorem crc8Block_injective {poly : Byte} (h : poly.getLsbD 0 = true) (ys : List Byte) {c c' : Byte}
    (heq : crc8Block poly c ys = crc8Block poly c' ys) : c = c' := by
  induction ys generalizing c c' with
  | nil => exact heq
  | cons y ys ih => exact (checksumByteIsInjective poly h c c' y y).2 (ih heq)

/-- Settles O10: up to the changed byte the running values agree, at it they part (O9), and behind it they stay apart. -/
theorem singleByteCorruptionIsDetected : Obligations.SingleByteCorruptionIsDetected := by
  intro poly c a b xs ys h hab heq
  rw [checksumIsIncremental, checksumIsIncremental] at heq
  exact hab ((checksumByteIsInjective poly h (crc8Block poly c xs) 0 a b).1 (crc8Block_injective h ys heq))

end Sys2Proof.Machine
end

section
/-! A received byte as a whole (R150): the part of a state it reads, and the one list of all the ways it can go. A byte has an
`Effect`, which says everything it writes, or raises one of three faults; `Takes` lists them with their conditions. -/

namespace Sys2Proof.Machine

open Sys2Proof.Claims

/-- The part of a state a received byte reads (R20): the decoder's registers, `rx_buf` and what `ObjLookup` answers. -/
structure Decoder where
  cfg : Config
  rxState : RxState
  rx : RxRegs
  rxBuf : Memory
  objects : List ObjEntry

def State.decoder (s : State) : Decoder where
  cfg := s.cfg
  rxState := s.rxState
  rx := s.rx
  rxBuf := s.rxBuf
  objects := s.env.objects

/-- What a received byte leaves: the decoder's state, registers and buffer, the `Deliver` event it emits (R160) and the cause
of the resynchronisation it raises (R301). -/
structure Effect where
  rxState : RxState
  rx : RxRegs
  rxBuf : Memory
  event : Option Deliver := none
  cause : Option Cause := none

/-- The counters after a byte with that effect (R36 to R38). -/
def Effect.stats (o : Effect) (c : Config) (t : Stats) : Stats :=
  { t with
    rxBytes := ctrAdd c t.rxBytes 1
    rxObjects := if o.event.isSome then ctrAdd c t.rxObjects 1 else t.rxObjects
    rxErrors := if o.cause.any isCounted then ctrAdd c t.rxErrors 1 else t.rxErrors }

/-- A state after a byte with that effect. -/
def Effect.apply (o : Effect) (s : State) : State :=
  { s with
    response := .done
    rxState := o.rxState
    rx := o.rx
    rxBuf := o.rxBuf
    stats := o.stats s.cfg s.stats
    trace := s.trace ++ (o.event.map Event.deliver).toList
    causes := s.causes ++ o.cause.toList }

/-- The outcome of a byte on a state: its effect, or a fault. -/
def outcomeOn (s : State) : Except Fault Effect → Result
  | .ok o => .next (o.apply s)
  | .error f => .fault f

section
variable (s : State) (st : RxState) (rx : RxRegs) (buf : Memory)

/-- A byte that ends no frame. -/
theorem Effect.apply_quiet :
    Effect.apply ⟨st, rx, buf, none, none⟩ s
      = { s with response := .done, rxState := st, rx := rx, rxBuf := buf, stats := s.stats.addRxByte s.cfg } := by
  simp [Effect.apply, Effect.stats, Stats.addRxByte]

/-- A byte at which the frame is left uncounted (R305). -/
theorem Effect.apply_resync {c : Cause} (h : isCounted c = false) :
    Effect.apply ⟨.sync, rx, buf, none, some c⟩ s
      = resync c { s with response := .done, rx := rx, rxBuf := buf, stats := s.stats.addRxByte s.cfg } := by
  simp [Effect.apply, Effect.stats, Stats.addRxByte, resync, h]

/-- A byte at which the frame is left with a counted error (R304). -/
theorem Effect.apply_countedError {c : Cause} (h : isCounted c = true) :
    Effect.apply ⟨.sync, rx, buf, none, some c⟩ s
      = countedError c { s with response := .done, rx := rx, rxBuf := buf, stats := s.stats.addRxByte s.cfg } := by
  simp [Effect.apply, Effect.stats, Stats.addRxByte, Stats.addRxError, countedError, h]

/-- A byte that completes a frame (R160). -/
theorem Effect.apply_deliver (d : Deliver) :
    Effect.apply ⟨.sync, rx, buf, some d, none⟩ s
      = { s with
          response := .done, rxState := .sync, rx := rx, rxBuf := buf
          stats := (s.stats.addRxByte s.cfg).addRxObject s.cfg
          trace := s.trace ++ [.deliver d] } := by
  simp [Effect.apply, Effect.stats, Stats.addRxByte, Stats.addRxObject]

end

namespace Decoder

/-- The registers after the prologue of a byte outside `SYNC` (R151). -/
def counted (d : Decoder) : RxRegs := { d.rx with count := d.rx.count + 1 }

/-- The registers after the prologue and the fold of the byte (R151, R23). -/
def folded (b : Byte) (d : Decoder) : RxRegs := { d.counted with cs := crc8Byte d.cfg.crcPoly d.rx.cs b }

/-- After a byte of the declared length (R154). -/
def lenTaken (b : Byte) (d : Decoder) : RxRegs :=
  { d.folded b with len := putByte16 d.rx.len b d.rx.fld, fld := d.rx.fld + 1 }

/-- After a byte of the object id (R155). -/
def idTaken (b : Byte) (d : Decoder) : RxRegs :=
  { d.folded b with objid := putByte32 d.rx.objid b d.rx.fld, fld := d.rx.fld + 1 }

/-- After a byte of the instance id (R158). -/
def instTaken (b : Byte) (d : Decoder) : RxRegs :=
  { d.folded b with instid := putByte16 d.rx.instid b d.rx.fld, fld := d.rx.fld + 1 }

/-- `rx_kind` (R26). -/
def kind (d : Decoder) : Option Kind := kindOf d.cfg d.rx.type

/-- `ObjLookup` of the object id that a byte completes (R156). -/
def lookup (b : Byte) (d : Decoder) : Option ObjEntry := d.objects.find? (fun e => e.id == (d.idTaken b).objid)

/-- The outcome of the header's three tests at a byte that completes the object id (R156). -/
def fault (b : Byte) (d : Decoder) : Option Cause :=
  headerFault d.cfg d.kind (d.lookup b) (d.idTaken b).count d.rx.len

/-- The registers after the latch of the oracle's answer (R29). -/
def latched (b : Byte) (d : Decoder) : RxRegs :=
  match d.lookup b with
  | none => { d.idTaken b with found := false }
  | some e => { d.idTaken b with found := true, single := e.single }

/-- The registers after a header about a known object that passes every test (R156). -/
def accepted (b : Byte) (e : ObjEntry) (d : Decoder) : RxRegs :=
  { d.idTaken b with
    found := true
    single := e.single
    paylen := BitVec.ofNat 16 (payLen d.kind (some e))
    instid := 0
    fld := 0 }

/-- The event of a frame whose checksum matches (R160). -/
def event (d : Decoder) (k : Kind) (payload : List Byte) : Deliver where
  kind := k
  objid := d.rx.objid
  found := d.rx.found
  instid := d.rx.instid
  paylen := d.rx.paylen
  payload := payload

end Decoder

/-- Every way a received byte can go, state by state (R152 to R160). -/
inductive Takes (b : Byte) (d : Decoder) : Except Fault Effect → Prop
  | ignored (hst : d.rxState = .sync) (hb : b ≠ d.cfg.syncVal) : Takes b d (.ok ⟨.sync, d.rx, d.rxBuf, none, none⟩)
  | synced (hst : d.rxState = .sync) (hb : b = d.cfg.syncVal) :
    Takes b d
      (.ok ⟨.type, { d.rx with cs := crc8Byte d.cfg.crcPoly d.cfg.crcInit b, count := 1 }, d.rxBuf, none, none⟩)
  | badVersion (hst : d.rxState = .type) (hv : versionOk d.cfg b = false) :
    Takes b d (.ok ⟨.sync, d.folded b, d.rxBuf, none, some .resyncVersion⟩)
  | badKind (hst : d.rxState = .type) (hv : versionOk d.cfg b = true) (hk : kindOf d.cfg b = none) :
    Takes b d (.ok ⟨.sync, d.folded b, d.rxBuf, none, some .resyncKind⟩)
  | typed (k : Kind) (hst : d.rxState = .type) (hv : versionOk d.cfg b = true) (hk : kindOf d.cfg b = some k) :
    Takes b d (.ok ⟨.size, { d.folded b with type := b, len := 0, fld := 0 }, d.rxBuf, none, none⟩)
  | sizeMore (hst : d.rxState = .size) (hf : d.rx.fld ≠ 1) : Takes b d (.ok ⟨.size, d.lenTaken b, d.rxBuf, none, none⟩)
  | badRange (hst : d.rxState = .size) (hf : d.rx.fld = 1) (hr : lenInRange d.cfg (d.lenTaken b).len = false) :
    Takes b d (.ok ⟨.sync, d.lenTaken b, d.rxBuf, none, some .errLenRange⟩)
  | sized (hst : d.rxState = .size) (hf : d.rx.fld = 1) (hr : lenInRange d.cfg (d.lenTaken b).len = true) :
    Takes b d (.ok ⟨.objid, { d.lenTaken b with fld := 0, objid := 0 }, d.rxBuf, none, none⟩)
  | idMore (hst : d.rxState = .objid) (hf : d.rx.fld ≠ 3) : Takes b d (.ok ⟨.objid, d.idTaken b, d.rxBuf, none, none⟩)
  | badHeader (c : Cause) (hst : d.rxState = .objid) (hf : d.rx.fld = 3) (hc : d.fault b = some c) :
    Takes b d (.ok ⟨.sync, d.latched b, d.rxBuf, none, some c⟩)
  | idUnknown (hst : d.rxState = .objid) (hf : d.rx.fld = 3) (hc : d.fault b = none) (hl : d.lookup b = none) :
    Takes b d (.ok ⟨.cs, { d.idTaken b with found := false, paylen := 0, instid := 0, fld := 0 }, d.rxBuf, none, none⟩)
  | idKnown (e : ObjEntry) (hst : d.rxState = .objid) (hf : d.rx.fld = 3) (hc : d.fault b = none)
    (hl : d.lookup b = some e) :
    Takes b d (.ok ⟨afterObjId true e.single (payLen d.kind (some e)), d.accepted b e, d.rxBuf, none, none⟩)
  | instMore (hst : d.rxState = .instid) (hf : d.rx.fld ≠ 1) :
    Takes b d (.ok ⟨.instid, d.instTaken b, d.rxBuf, none, none⟩)
  | instLast (hst : d.rxState = .instid) (hf : d.rx.fld = 1) :
    Takes b d
      (.ok ⟨if 0 < d.rx.paylen.toNat then .data else .cs, { d.instTaken b with fld := 0 }, d.rxBuf, none, none⟩)
  | outside (hst : d.rxState = .data) (hf : d.cfg.maxPayload ≤ d.rx.fld.toNat) :
    Takes b d (.error .indexOutsideBuffer)
  | dataMore (hst : d.rxState = .data) (hf : d.rx.fld.toNat < d.cfg.maxPayload) (hl : d.rx.fld + 1 ≠ d.rx.paylen) :
    Takes b d (.ok ⟨.data, { d.folded b with fld := d.rx.fld + 1 }, d.rxBuf.write d.rx.fld.toNat b, none, none⟩)
  | dataLast (hst : d.rxState = .data) (hf : d.rx.fld.toNat < d.cfg.maxPayload) (hl : d.rx.fld + 1 = d.rx.paylen) :
    Takes b d (.ok ⟨.cs, { d.folded b with fld := d.rx.fld + 1 }, d.rxBuf.write d.rx.fld.toNat b, none, none⟩)
  | badChecksum (hst : d.rxState = .cs) (hb : b ≠ d.rx.cs) :
    Takes b d (.ok ⟨.sync, d.counted, d.rxBuf, none, some .errChecksum⟩)
  | badCount (hst : d.rxState = .cs) (hb : b = d.rx.cs) (hc : countConsistent d.counted.count d.rx.len = false) :
    Takes b d (.ok ⟨.sync, d.counted, d.rxBuf, none, some .errCount⟩)
  | noKind (hst : d.rxState = .cs) (hb : b = d.rx.cs) (hc : countConsistent d.counted.count d.rx.len = true)
    (hk : d.kind = none) : Takes b d (.error .noKindRecorded)
  | unwritten (k : Kind) (hst : d.rxState = .cs) (hb : b = d.rx.cs)
    (hc : countConsistent d.counted.count d.rx.len = true) (hk : d.kind = some k)
    (hp : d.rxBuf.readFrom 0 d.rx.paylen.toNat = none) : Takes b d (.error .unwrittenByte)
  | complete (k : Kind) (payload : List Byte) (hst : d.rxState = .cs) (hb : b = d.rx.cs)
    (hc : countConsistent d.counted.count d.rx.len = true) (hk : d.kind = some k)
    (hp : d.rxBuf.readFrom 0 d.rx.paylen.toNat = some payload) :
    Takes b d (.ok ⟨.sync, d.counted, d.rxBuf, some (d.event k payload), none⟩)

/-- The header's tests raise one of three causes, all counted (R156). -/
theorem headerFault_cause {c : Config} {kind : Option Kind} {r : Option ObjEntry} {count len : Half} {cause : Cause}
    (h : headerFault c kind r count len = some cause) :
    cause ∈ [Cause.errUnknownObj, .errPayloadSize, .errLenMismatch] := by
  unfold headerFault at h
  split at h
  · cases h; simp
  · split at h
    · cases h; simp
    · split at h
      · cases h; simp
      · cases h

theorem isCounted_of_headerFault {c : Config} {kind : Option Kind} {r : Option ObjEntry} {count len : Half}
    {cause : Cause} (h : headerFault c kind r count len = some cause) : isCounted cause = true := by
  have hmem := headerFault_cause h
  revert hmem
  cases cause <;> decide

/-- Every byte goes some way. -/
theorem exists_takes (b : Byte) (d : Decoder) : ∃ o, Takes b d o := by
  cases hst : d.rxState with
  | sync =>
    by_cases hb : b = d.cfg.syncVal
    · exact ⟨_, .synced hst hb⟩
    · exact ⟨_, .ignored hst hb⟩
  | type =>
    cases hv : versionOk d.cfg b with
    | false => exact ⟨_, .badVersion hst hv⟩
    | true =>
      cases hk : kindOf d.cfg b with
      | none => exact ⟨_, .badKind hst hv hk⟩
      | some k => exact ⟨_, .typed k hst hv hk⟩
  | size =>
    by_cases hf : d.rx.fld = 1
    · cases hr : lenInRange d.cfg (d.lenTaken b).len with
      | false => exact ⟨_, .badRange hst hf hr⟩
      | true => exact ⟨_, .sized hst hf hr⟩
    · exact ⟨_, .sizeMore hst hf⟩
  | objid =>
    by_cases hf : d.rx.fld = 3
    · cases hc : d.fault b with
      | some c => exact ⟨_, .badHeader c hst hf hc⟩
      | none =>
        cases hl : d.lookup b with
        | none => exact ⟨_, .idUnknown hst hf hc hl⟩
        | some e => exact ⟨_, .idKnown e hst hf hc hl⟩
    · exact ⟨_, .idMore hst hf⟩
  | instid =>
    by_cases hf : d.rx.fld = 1
    · exact ⟨_, .instLast hst hf⟩
    · exact ⟨_, .instMore hst hf⟩
  | data =>
    rcases Nat.lt_or_ge d.rx.fld.toNat d.cfg.maxPayload with hf | hf
    · by_cases hl : d.rx.fld + 1 = d.rx.paylen
      · exact ⟨_, .dataLast hst hf hl⟩
      · exact ⟨_, .dataMore hst hf hl⟩
    · exact ⟨_, .outside hst hf⟩
  | cs =>
    by_cases hb : b = d.rx.cs
    · cases hc : countConsistent d.counted.count d.rx.len with
      | false => exact ⟨_, .badCount hst hb hc⟩
      | true =>
        cases hk : d.kind with
        | none => exact ⟨_, .noKind hst hb hc hk⟩
        | some k =>
          cases hp : d.rxBuf.readFrom 0 d.rx.paylen.toNat with
          | none => exact ⟨_, .unwritten k hst hb hc hk hp⟩
          | some payload => exact ⟨_, .complete k payload hst hb hc hk hp⟩
    · exact ⟨_, .badChecksum hst hb⟩

/-- The way a byte goes is what `RX.BYTE` does. -/
theorem rxTake_of_takes {b : Byte} {s : State} {o : Except Fault Effect} (h : Takes b s.decoder o) :
    rxTake b s = outcomeOn s o := by
  cases h with
  | ignored hst hb =>
    rw [rxTake_of_sync hst, stateSync_of_ne (s := countedInSync s) hb, outcomeOn, Effect.apply_quiet, ← hst]; rfl
  | synced hst hb =>
    rw [rxTake_of_sync hst, stateSync_of_eq (s := countedInSync s) hb, outcomeOn, Effect.apply_quiet]; rfl
  | badVersion hst hv =>
    rw [rxTake_of_type hst, stateType_version (s := counted s) hv, outcomeOn, Effect.apply_resync _ _ _ rfl]; rfl
  | badKind hst hv hk =>
    rw [rxTake_of_type hst, stateType_kind (s := counted s) hv hk, outcomeOn, Effect.apply_resync _ _ _ rfl]; rfl
  | typed k hst hv hk =>
    rw [rxTake_of_type hst, stateType_accept (s := counted s) hv hk, outcomeOn, Effect.apply_quiet]; rfl
  | sizeMore hst hf =>
    rw [rxTake_of_size hst, stateSize_more (s := counted s) hf, outcomeOn, Effect.apply_quiet, ← hst]; rfl
  | badRange hst hf hr =>
    rw [rxTake_of_size hst, stateSize_range (s := counted s) hf hr, outcomeOn, Effect.apply_countedError _ _ _ rfl]; rfl
  | sized hst hf hr =>
    rw [rxTake_of_size hst, stateSize_accept (s := counted s) hf hr, outcomeOn, Effect.apply_quiet]; rfl
  | idMore hst hf =>
    rw [rxTake_of_objid hst, stateObjId_more (s := counted s) hf, outcomeOn, Effect.apply_quiet, ← hst]; rfl
  | badHeader c hst hf hc =>
    have hl : latchLookup (s.decoder.lookup b) { counted s with rx := objIdRegs b (counted s) }
        = { counted s with rx := s.decoder.latched b } := by
      rw [Decoder.latched]; cases s.decoder.lookup b <;> rfl
    rw [rxTake_of_objid hst, stateObjId_last (s := counted s) hf, outcomeOn,
      Effect.apply_countedError _ _ _ (isCounted_of_headerFault hc),
      objidComplete_fault (s := { counted s with rx := objIdRegs b (counted s) }) hc]
    exact congrArg (fun u => Host.Outcome.next (countedError c u)) hl
  | idUnknown hst hf hc hl =>
    have hc' : headerFault s.cfg s.decoder.kind none (s.decoder.idTaken b).count s.rx.len = none := hl ▸ hc
    obtain ⟨hreq, -, -⟩ := headerFault_eq_none hc'
    have hk : s.decoder.kind = some .objReq := hreq rfl
    rw [hk] at hc'
    rw [rxTake_of_objid hst, stateObjId_last (s := counted s) hf, outcomeOn, Effect.apply_quiet,
      objidComplete_unknown (s := { counted s with rx := objIdRegs b (counted s) }) hl hk hc']
    rfl
  | idKnown e hst hf hc hl =>
    have hc' : headerFault s.cfg s.decoder.kind (some e) (s.decoder.idTaken b).count s.rx.len = none := hl ▸ hc
    rw [rxTake_of_objid hst, stateObjId_last (s := counted s) hf, outcomeOn, Effect.apply_quiet,
      objidComplete_known (s := { counted s with rx := objIdRegs b (counted s) }) hl hc']
    rfl
  | instMore hst hf =>
    rw [rxTake_of_instid hst, stateInstId_more (s := counted s) hf, outcomeOn, Effect.apply_quiet, ← hst]; rfl
  | instLast hst hf =>
    rw [rxTake_of_instid hst, stateInstId_last (s := counted s) hf, outcomeOn, Effect.apply_quiet]; rfl
  | outside hst hf => rw [rxTake_of_data hst, stateData_outside (s := counted s) hf, outcomeOn]
  | dataMore hst hf hl =>
    rw [rxTake_of_data hst, stateData_more (s := counted s) hf hl, outcomeOn, Effect.apply_quiet, ← hst]; rfl
  | dataLast hst hf hl =>
    rw [rxTake_of_data hst, stateData_last (s := counted s) hf hl, outcomeOn, Effect.apply_quiet]; rfl
  | badChecksum hst hb =>
    rw [rxTake_of_cs hst, stateCs_checksum (s := counted s) hb, outcomeOn, Effect.apply_countedError _ _ _ rfl]; rfl
  | badCount hst hb hc =>
    rw [rxTake_of_cs hst, stateCs_count (s := counted s) hb hc, outcomeOn, Effect.apply_countedError _ _ _ rfl]; rfl
  | noKind hst hb hc hk =>
    have hk' : rxKind (counted s) = none := hk
    rw [rxTake_of_cs hst, stateCs_match (s := counted s) hb hc, hk', outcomeOn]
  | unwritten k hst hb hc hk hp =>
    have hk' : rxKind (counted s) = some k := hk
    have hp' : (counted s).rxBuf.readFrom 0 (counted s).rx.paylen.toNat = none := hp
    rw [rxTake_of_cs hst, stateCs_match (s := counted s) hb hc, hk', hp', outcomeOn]
  | complete k payload hst hb hc hk hp =>
    rw [rxTake_of_cs hst, stateCs_deliver (s := counted s) hb hc hk hp, outcomeOn, Effect.apply_deliver]; rfl

/-- A received byte depends on the decoder's part alone: its effect is the same on every state with that part. -/
theorem rxTake_of_decoder (b : Byte) (d : Decoder) :
    ∃ o, Takes b d o ∧ ∀ s : State, s.decoder = d → rxTake b s = outcomeOn s o := by
  obtain ⟨o, ho⟩ := exists_takes b d
  exact ⟨o, ho, fun s hs => rxTake_of_takes (hs ▸ ho)⟩

/-- A byte that answers a next state has an effect, and that state is its effect on the old one. -/
theorem takes_of_rxTake {b : Byte} {s t : State} (h : rxTake b s = .next t) :
    ∃ o, Takes b s.decoder (.ok o) ∧ t = o.apply s := by
  obtain ⟨o, ho⟩ := exists_takes b s.decoder
  rw [rxTake_of_takes ho] at h
  cases o with
  | ok o => exact ⟨o, ho, (Host.Outcome.next.inj h).symm⟩
  | error f => cases h

/-- The same of `RX.BYTE` behind its guard. -/
theorem takes_of_exec {b : Byte} {s t : State} (h : exec (.rxByte b) s = .next t) :
    ∃ o, Takes b s.decoder (.ok o) ∧ t = o.apply s :=
  takes_of_rxTake (whenInitialised_eq_next h).2

theorem sameOutsideDecoder_apply (o : Effect) (s : State) : sameOutsideDecoder s (o.apply s) :=
  ⟨rfl, rfl, rfl, rfl, rfl, rfl, rfl, rfl, rfl, rfl, rfl, rfl⟩

end Sys2Proof.Machine
end

section
/-! The decoder step by step (`spec/41_decoder.md`, sections 1 to 3): what the list of ways a byte can go (`Takes`) says of the
sequencer, the errors, the events and the object model. -/

namespace Sys2Proof.Machine

open Sys2Proof.Claims

/-! The effect of a byte, whatever the state it meets. -/

/-- The sequencer moves along R162. -/
theorem Takes.rxState_mem {b : Byte} {d : Decoder} {o : Effect} (h : Takes b d (.ok o)) :
    o.rxState ∈ successors d.rxState := by
  cases h with
  | idKnown e hst => rw [hst, afterObjId_true]; split_ifs <;> simp [successors]
  | instLast hst => rw [hst]; dsimp only; split_ifs <;> simp [successors]
  | _ => rename d.rxState = _ => hst; rw [hst]; simp [successors]

/-- A byte that raises a cause ends the frame without an event; the counted ones are raised in `SIZE`, `OBJID` and `CS`. -/
theorem Takes.of_cause {b : Byte} {d : Decoder} {o : Effect} {c : Cause} (h : Takes b d (.ok o)) (hc : o.cause = some c) :
    o.rxState = .sync ∧ o.event = none ∧ (isCounted c = true → d.rxState ∈ [RxState.size, .objid, .cs]) := by
  cases h with
  | badVersion | badKind => cases hc; exact ⟨rfl, rfl, nofun⟩
  | badRange hst | badHeader _ hst | badChecksum hst | badCount hst => exact ⟨rfl, rfl, fun _ => by rw [hst]; decide⟩
  | _ => cases hc

/-- A byte that emits an event is the one that matches the checksum of a frame whose payload is read from the buffer. -/
theorem Takes.of_event {b : Byte} {d : Decoder} {o : Effect} {e : Deliver} (h : Takes b d (.ok o))
    (he : o.event = some e) :
    d.rxState = .cs ∧ o.cause = none
      ∧ ∃ k payload, d.kind = some k ∧ d.rxBuf.readFrom 0 d.rx.paylen.toNat = some payload ∧ e = d.event k payload := by
  cases h with
  | complete k payload hst hb hc hk hp => exact ⟨hst, rfl, k, payload, hk, hp, (Option.some.inj he).symm⟩
  | _ => cases he

/-- Settles O32: the three clauses are those of the effect: its state, its cause and its event. -/
theorem sequencerFollowsTheTransitionTable : Obligations.SequencerFollowsTheTransitionTable := by
  intro s t b h
  obtain ⟨o, ho, rfl⟩ := takes_of_exec h
  refine ⟨ho.rxState_mem, ?_, ?_⟩
  · cases hc : o.cause with
    | none => exact .inl (by simp [Effect.apply, Effect.stats, hc])
    | some c =>
      obtain ⟨hsync, hev, hst⟩ := ho.of_cause hc
      cases hcount : isCounted c with
      | false => exact .inl (by simp [Effect.apply, Effect.stats, hc, hcount])
      | true =>
        exact .inr ⟨by simp [Effect.apply, Effect.stats, hc, hcount], hsync, by simp [Effect.apply, hev], hst hcount⟩
  · cases hev : o.event with
    | none => exact .inl (by simp [Effect.apply, hev])
    | some e =>
      obtain ⟨hst, hc, -⟩ := ho.of_event hev
      exact .inr ⟨hst, by simp [Effect.apply, Effect.stats, hc], by simp [Effect.apply, hc],
        by simp [Effect.apply, Effect.stats, hev], e, by simp [Effect.apply, hev]⟩

/-- Settles O33: the effect has one cause at most, and a cause ends the frame without an event. -/
theorem oneByteRaisesAtMostOneEvent : Obligations.OneByteRaisesAtMostOneEvent := by
  intro s t b h
  obtain ⟨o, ho, rfl⟩ := takes_of_exec h
  cases hc : o.cause with
  | none => exact .inl ⟨by simp [Effect.apply, hc], by simp [Effect.apply, Effect.stats, hc]⟩
  | some c =>
    obtain ⟨hsync, hev, -⟩ := ho.of_cause hc
    exact .inr ⟨c, by simp [Effect.apply, hc], hsync, by simp [Effect.apply, hev],
      by simp [Effect.apply, Effect.stats, hc]⟩

/-! Past the object id the object model is not asked (R29, R250). -/

/-- The decoder's part with another object model. -/
def Decoder.withObjects (objects : List ObjEntry) (d : Decoder) : Decoder := { d with objects := objects }

theorem Takes.withObjects {b : Byte} {d : Decoder} {o : Except Fault Effect} (h : Takes b d o)
    (hst : d.rxState ∈ [RxState.instid, .data, .cs]) (objects : List ObjEntry) :
    Takes b (d.withObjects objects) o := by
  cases h with
  | instMore h1 h2 => exact .instMore (d := d.withObjects objects) h1 h2
  | instLast h1 h2 => exact .instLast (d := d.withObjects objects) h1 h2
  | outside h1 h2 => exact .outside (d := d.withObjects objects) h1 h2
  | dataMore h1 h2 h3 => exact .dataMore (d := d.withObjects objects) h1 h2 h3
  | dataLast h1 h2 h3 => exact .dataLast (d := d.withObjects objects) h1 h2 h3
  | badChecksum h1 h2 => exact .badChecksum (d := d.withObjects objects) h1 h2
  | badCount h1 h2 h3 => exact .badCount (d := d.withObjects objects) h1 h2 h3
  | noKind h1 h2 h3 h4 => exact .noKind (d := d.withObjects objects) h1 h2 h3 h4
  | unwritten k h1 h2 h3 h4 h5 => exact .unwritten (d := d.withObjects objects) k h1 h2 h3 h4 h5
  | complete k payload h1 h2 h3 h4 h5 => exact .complete (d := d.withObjects objects) k payload h1 h2 h3 h4 h5
  | _ => rename d.rxState = _ => hst'; rw [hst'] at hst; simp at hst

/-- Settles O36: in these states a byte goes the same way with any object model, and its effect does not touch it. -/
theorem lookupIsLatched : Obligations.LookupIsLatched := by
  intro s b objects hst
  refine whenInitialised_mapNext (f := fun t => { t with env := { t.env with objects := objects } }) rfl ?_
  obtain ⟨o, ho⟩ := exists_takes b s.decoder
  have ho' : Takes b ({ s with env := { s.env with objects := objects } } : State).decoder o := ho.withObjects hst objects
  rw [rxTake_of_takes ho, rxTake_of_takes ho']
  cases o <;> rfl

end Sys2Proof.Machine
end

section
/-! Soundness of the decoder (R42, R49, R185, R186): from registers as Table V and the bounds need them no byte faults, and it
leaves them so. -/

namespace Sys2Proof.Machine

open Sys2Proof.Claims

theorem maxPayload_le_of_wf {c : Config} (h : c.wf = true) : c.maxPayload ≤ 65524 := by
  simp only [Config.wf, Bool.and_eq_true, decide_eq_true_eq] at h
  exact h.2

/-- A byte put behind `n` bits keeps a field within `n + 8` bits. -/
theorem toNat_or_shiftLeft_lt {w n : Nat} {r : BitVec w} (b : Byte) (h : r.toNat < 2 ^ n) :
    (r ||| (b.setWidth w <<< n)).toNat < 2 ^ (n + 8) := by
  have hb : (b.setWidth w <<< n).toNat < 2 ^ (n + 8) := by
    have hw : (b.setWidth w).toNat < 2 ^ 8 := by
      rw [BitVec.toNat_setWidth]; exact Nat.lt_of_le_of_lt (Nat.mod_le _ _) b.isLt
    rw [BitVec.toNat_shiftLeft, Nat.shiftLeft_eq, Nat.add_comm, Nat.pow_add]
    exact Nat.lt_of_le_of_lt (Nat.mod_le _ _) (Nat.mul_lt_mul_of_pos_right hw (Nat.two_pow_pos n))
  rw [BitVec.toNat_or]
  exact Nat.or_lt_two_pow (Nat.lt_of_lt_of_le h (Nat.pow_le_pow_right (by omega) (by omega))) hb

/-- A byte put at its index keeps a field within the bytes put so far (R154, R158). -/
theorem putByte16_lt {r fld : Half} (b : Byte) (h : r.toNat < 2 ^ (8 * fld.toNat)) :
    (putByte16 r b fld).toNat < 2 ^ (8 * (fld.toNat + 1)) :=
  toNat_or_shiftLeft_lt b h

/-- A byte put at its index keeps the object id within the bytes put so far (R155). -/
theorem putByte32_lt {r : ObjId} {fld : Half} (b : Byte) (h : r.toNat < 2 ^ (8 * fld.toNat)) :
    (putByte32 r b fld).toNat < 2 ^ (8 * (fld.toNat + 1)) :=
  toNat_or_shiftLeft_lt b h

/-- A register that has not reached its last value goes up by one. -/
theorem toNat_add_one {f : Half} {n : Nat} (h : f.toNat < n) (hn : n ≤ 65535) : (f + 1).toNat = f.toNat + 1 := by
  bv_omega

/-- The payload length of an object fits its register: a size has 16 bits. -/
theorem toNat_ofNat_payLen (kind : Option Kind) (e : ObjEntry) :
    (BitVec.ofNat 16 (payLen kind (some e))).toNat = payLen kind (some e) := by
  rw [BitVec.toNat_ofNat, Nat.mod_eq_of_lt]
  rw [payLen_some]
  split
  · decide
  · exact e.size.isLt

/-- What the accepted header of a known object fixes (R156, R157). -/
theorem headerAccepted_accepted {b : Byte} {s : State} {e : ObjEntry} (hrec : typeRecorded s)
    (hcount : s.rx.count.toNat = 7) (hc : s.decoder.fault b = none) (hl : s.decoder.lookup b = some e)
    (st : RxState) (buf : Memory) :
    headerAccepted (Effect.apply ⟨st, s.decoder.accepted b e, buf, none, none⟩ s) := by
  have hc' : headerFault s.cfg s.decoder.kind (some e) (s.rx.count + 1) s.rx.len = none := hl ▸ hc
  obtain ⟨-, hfit, hlen⟩ := headerFault_eq_none hc'
  have hcount' : (s.rx.count + 1).toNat = 8 := by bv_omega
  have hpl := toNat_ofNat_payLen s.decoder.kind e
  refine ⟨hrec, hpl.symm ▸ hfit, ?_, fun hk => ?_, nofun, fun _ => rfl⟩
  · show 8 + instLen true e.single + (BitVec.ofNat 16 (payLen s.decoder.kind (some e))).toNat = s.rx.len.toNat
    rw [hpl, ← hcount']; exact hlen
  · have hk' : s.decoder.kind ∈ [some Kind.objReq, some .ack, some .nack] := hk
    show BitVec.ofNat 16 (payLen s.decoder.kind (some e)) = 0
    rw [payLen_some, if_pos hk']; rfl

/-- The field after an accepted header about a known object starts as Table V needs it (R157). -/
theorem decoderSound_accepted {b : Byte} {s : State} {e : ObjEntry} (hrec : typeRecorded s)
    (hcount : s.rx.count.toNat = 7) (hc : s.decoder.fault b = none) (hl : s.decoder.lookup b = some e) :
    decoderSound (Effect.apply
      ⟨afterObjId true e.single (payLen s.decoder.kind (some e)), s.decoder.accepted b e, s.rxBuf, none, none⟩ s) := by
  have hacc := headerAccepted_accepted hrec hcount hc hl
  have hcount' : (s.rx.count + 1).toNat = 8 := by bv_omega
  have hpl := toNat_ofNat_payLen s.decoder.kind e
  cases hs : e.single with
  | false => exact ⟨hacc .instid _, rfl, hs, (by decide : (0 : Half).toNat < 2), hcount', Nat.one_pos⟩
  | true =>
    have hil : instLen true e.single = 0 := by rw [hs]; rfl
    rcases Nat.eq_zero_or_pos (payLen s.decoder.kind (some e)) with hn | hn
    · have hst : afterObjId true true (payLen s.decoder.kind (some e)) = .cs := by rw [hn]; rfl
      rw [hst]
      obtain ⟨-, -, hlen, -, -, -⟩ := hacc .cs s.rxBuf
      have hlen' : 8 + instLen true e.single + (BitVec.ofNat 16 (payLen s.decoder.kind (some e))).toNat
          = s.rx.len.toNat := hlen
      refine ⟨hacc .cs _, BitVec.eq_of_toNat_eq (?_ : (s.rx.count + 1).toNat = s.rx.len.toNat), ?_⟩
      · rw [← hlen', hpl, hn, hil, hcount']
      · show (s.rxBuf.readFrom 0 (BitVec.ofNat 16 (payLen s.decoder.kind (some e))).toNat).isSome = true
        rw [hpl, hn]; rfl
    · have hst : afterObjId true true (payLen s.decoder.kind (some e)) = .data := if_pos hn
      rw [hst]
      refine ⟨hacc .data _, rfl, hpl.symm ▸ hn, ?_, rfl⟩
      show (s.rx.count + 1).toNat = 8 + instLen true e.single + 0
      rw [hcount', hil]

/-- The declared length of an accepted header: the header's own bytes, the instance id and the payload (R96). -/
theorem headerAccepted.length_eq {s : State} (h : headerAccepted s) :
    8 + instLen s.rx.found s.rx.single + s.rx.paylen.toNat = s.rx.len.toNat := by
  obtain ⟨-, -, hlen, -⟩ := h
  exact hlen

/-- From registers as Table V needs them a byte has an effect, and the registers after it are as Table V needs them. -/
theorem Takes.sound {b : Byte} {s : State} {o : Except Fault Effect} (h : Takes b s.decoder o)
    (hwf : s.cfg.wf = true) (hd : decoderSound s) (hbuf : s.rxBuf.within s.cfg.maxPayload) :
    ∃ e, o = .ok e ∧ decoderSound (e.apply s) ∧ e.rxBuf.within s.cfg.maxPayload := by
  have hmax := maxPayload_le_of_wf hwf
  have hst' : ∀ st, s.decoder.rxState = st → s.rxState = st := fun _ => id
  cases h with
  | ignored | badVersion | badKind | badRange | badHeader | badChecksum | badCount | complete =>
    exact ⟨_, rfl, trivial, hbuf⟩
  | synced => exact ⟨_, rfl, rfl, hbuf⟩
  | typed k hst hv hk =>
    simp only [decoderSound, hst' _ hst] at hd
    refine ⟨_, rfl, ⟨⟨hv, Option.isSome_iff_exists.2 ⟨k, hk⟩⟩, ?_, ?_, ?_⟩, hbuf⟩
    · show (0 : Half).toNat < 2
      decide
    · show (s.rx.count + 1).toNat = 2
      rw [hd]; rfl
    · show (0 : Half).toNat < 2 ^ (8 * (0 : Half).toNat)
      decide
  | sizeMore hst hf =>
    simp only [decoderSound, hst' _ hst] at hd
    obtain ⟨hrec, hfld, hcount, hlen⟩ := hd
    have hf' : s.rx.fld ≠ 1 := hf
    have hfld' : (s.rx.fld + 1).toNat = s.rx.fld.toNat + 1 := toNat_add_one hfld (by omega)
    refine ⟨_, rfl, ⟨hrec, ?_, ?_, ?_⟩, hbuf⟩
    · show (s.rx.fld + 1).toNat < 2
      bv_omega
    · show (s.rx.count + 1).toNat = 2 + (s.rx.fld + 1).toNat
      bv_omega
    · show (putByte16 s.rx.len b s.rx.fld).toNat < 2 ^ (8 * (s.rx.fld + 1).toNat)
      rw [hfld']; exact putByte16_lt b hlen
  | sized hst hf hr =>
    simp only [decoderSound, hst' _ hst] at hd
    obtain ⟨hrec, -, hcount, -⟩ := hd
    have hf' : s.rx.fld = 1 := hf
    refine ⟨_, rfl, ⟨hrec, ?_, ?_, ?_, hr⟩, hbuf⟩
    · show (0 : Half).toNat < 4
      decide
    · show (s.rx.count + 1).toNat = 4
      bv_omega
    · show (0 : ObjId).toNat < 2 ^ (8 * (0 : Half).toNat)
      decide
  | idMore hst hf =>
    simp only [decoderSound, hst' _ hst] at hd
    obtain ⟨hrec, hfld, hcount, hid, hlen⟩ := hd
    have hf' : s.rx.fld ≠ 3 := hf
    have hfld' : (s.rx.fld + 1).toNat = s.rx.fld.toNat + 1 := toNat_add_one hfld (by omega)
    refine ⟨_, rfl, ⟨hrec, ?_, ?_, ?_, hlen⟩, hbuf⟩
    · show (s.rx.fld + 1).toNat < 4
      bv_omega
    · show (s.rx.count + 1).toNat = 4 + (s.rx.fld + 1).toNat
      bv_omega
    · show (putByte32 s.rx.objid b s.rx.fld).toNat < 2 ^ (8 * (s.rx.fld + 1).toNat)
      rw [hfld']; exact putByte32_lt b hid
  | idUnknown hst hf hc hl =>
    simp only [decoderSound, hst' _ hst] at hd
    obtain ⟨hrec, -, hcount, -, -⟩ := hd
    have hf' : s.rx.fld = 3 := hf
    have hc' : headerFault s.cfg s.decoder.kind none (s.rx.count + 1) s.rx.len = none := hl ▸ hc
    obtain ⟨hreq, -, hlen⟩ := headerFault_eq_none hc'
    have hlen' : (s.rx.count + 1).toNat = s.rx.len.toNat := by simpa [hreq rfl, instLen, payLen] using hlen
    refine ⟨_, rfl, ⟨⟨hrec, Nat.zero_le _, ?_, fun _ => rfl, fun _ => hreq rfl, fun _ => rfl⟩, ?_, rfl⟩, hbuf⟩
    · show 8 + instLen false s.rx.single + 0 = s.rx.len.toNat
      simp only [instLen, Bool.false_and, Bool.false_eq_true, if_false]
      bv_omega
    · exact BitVec.eq_of_toNat_eq hlen'
  | idKnown e hst hf hc hl =>
    simp only [decoderSound, hst' _ hst] at hd
    obtain ⟨hrec, -, hcount, -, -⟩ := hd
    have hf' : s.rx.fld = 3 := hf
    exact ⟨_, rfl, decoderSound_accepted hrec (by bv_omega) hc hl, hbuf⟩
  | instMore hst hf =>
    simp only [decoderSound, hst' _ hst] at hd
    obtain ⟨hacc, hfound, hsingle, hfld, hcount, hinst⟩ := hd
    obtain ⟨hrec, hfit, hlen, hkind, hreq, -⟩ := hacc
    have hf' : s.rx.fld ≠ 1 := hf
    have hfld' : (s.rx.fld + 1).toNat = s.rx.fld.toNat + 1 := toNat_add_one hfld (by omega)
    have hil : instLen s.rx.found s.rx.single = 2 := by rw [hfound, hsingle]; rfl
    refine ⟨_, rfl, ⟨⟨hrec, hfit, hlen, hkind, hreq, fun h0 => ?_⟩, hfound, hsingle, ?_, ?_, ?_⟩, hbuf⟩
    · exact absurd (hil.symm.trans h0) (by decide)
    · show (s.rx.fld + 1).toNat < 2
      bv_omega
    · show (s.rx.count + 1).toNat = 8 + (s.rx.fld + 1).toNat
      bv_omega
    · show (putByte16 s.rx.instid b s.rx.fld).toNat < 2 ^ (8 * (s.rx.fld + 1).toNat)
      rw [hfld']; exact putByte16_lt b hinst
  | instLast hst hf =>
    simp only [decoderSound, hst' _ hst] at hd
    obtain ⟨hacc, hfound, hsingle, -, hcount, -⟩ := hd
    obtain ⟨hrec, hfit, hlen, hkind, hreq, -⟩ := hacc
    have hf' : s.rx.fld = 1 := hf
    have hil : instLen s.rx.found s.rx.single = 2 := by rw [hfound, hsingle]; rfl
    have hacc' : ∀ st, headerAccepted
        (Effect.apply ⟨st, { s.decoder.instTaken b with fld := 0 }, s.rxBuf, none, none⟩ s) := fun st =>
      ⟨hrec, hfit, hlen, hkind, hreq, fun h0 => absurd (hil.symm.trans h0) (by decide)⟩
    refine ⟨_, rfl, ?_, hbuf⟩
    rcases Nat.eq_zero_or_pos s.rx.paylen.toNat with hn | hn
    · have hst : (if 0 < s.decoder.rx.paylen.toNat then RxState.data else .cs) = .cs :=
        if_neg (Nat.not_lt.2 (Nat.le_of_eq hn))
      rw [hst]
      refine ⟨hacc' .cs, BitVec.eq_of_toNat_eq (?_ : (s.rx.count + 1).toNat = s.rx.len.toNat), ?_⟩
      · rw [hil, hn, minHeader] at hlen; bv_omega
      · show (s.rxBuf.readFrom 0 s.rx.paylen.toNat).isSome = true
        rw [hn]; rfl
    · have hst : (if 0 < s.decoder.rx.paylen.toNat then RxState.data else .cs) = .data := if_pos hn
      rw [hst]
      refine ⟨hacc' .data, hfound, hn, ?_, rfl⟩
      show (s.rx.count + 1).toNat = 8 + instLen s.rx.found s.rx.single + 0
      rw [hil]; bv_omega
  | outside hst hf =>
    simp only [decoderSound, hst' _ hst] at hd
    obtain ⟨⟨-, hfit, -⟩, -, hfld, -⟩ := hd
    exact absurd (Nat.lt_of_lt_of_le hfld hfit) (Nat.not_lt.2 hf)
  | dataMore hst hf hl =>
    simp only [decoderSound, hst' _ hst] at hd
    obtain ⟨hacc, hfound, hfld, hcount, hbytes⟩ := hd
    obtain ⟨bs, hbs⟩ := Option.isSome_iff_exists.1 hbytes
    have hfit : s.rx.fld.toNat < s.cfg.maxPayload := hf
    have hfld' : (s.rx.fld + 1).toNat = s.rx.fld.toNat + 1 := toNat_add_one hfit (by omega)
    have hlen := hacc.length_eq
    have hcount' : (s.rx.count + 1).toNat = s.rx.count.toNat + 1 :=
      toNat_add_one (n := s.rx.len.toNat) (by omega) (Nat.le_of_lt_succ s.rx.len.isLt)
    have hne : (s.rx.fld + 1).toNat ≠ s.rx.paylen.toNat := fun h => hl (BitVec.eq_of_toNat_eq h)
    refine ⟨_, rfl, ⟨hacc, hfound, ?_, ?_, ?_⟩, Memory.within_write hbuf hf b⟩
    · show (s.rx.fld + 1).toNat < s.rx.paylen.toNat
      omega
    · show (s.rx.count + 1).toNat = 8 + instLen s.rx.found s.rx.single + (s.rx.fld + 1).toNat
      omega
    · show ((s.rxBuf.write s.rx.fld.toNat b).readFrom 0 (s.rx.fld + 1).toNat).isSome = true
      rw [hfld', Memory.readFrom_write_succ b hbs]; rfl
  | dataLast hst hf hl =>
    simp only [decoderSound, hst' _ hst] at hd
    obtain ⟨hacc, hfound, hfld, hcount, hbytes⟩ := hd
    obtain ⟨bs, hbs⟩ := Option.isSome_iff_exists.1 hbytes
    have hfit : s.rx.fld.toNat < s.cfg.maxPayload := hf
    have hfld' : (s.rx.fld + 1).toNat = s.rx.fld.toNat + 1 := toNat_add_one hfit (by omega)
    have hpl : s.rx.paylen.toNat = s.rx.fld.toNat + 1 := by rw [← hfld']; exact congrArg BitVec.toNat hl.symm
    have hlen := hacc.length_eq
    have hcount' : (s.rx.count + 1).toNat = s.rx.count.toNat + 1 :=
      toNat_add_one (n := s.rx.len.toNat) (by omega) (Nat.le_of_lt_succ s.rx.len.isLt)
    refine ⟨_, rfl, ⟨hacc, BitVec.eq_of_toNat_eq (?_ : (s.rx.count + 1).toNat = s.rx.len.toNat), ?_⟩,
      Memory.within_write hbuf hf b⟩
    · omega
    · show ((s.rxBuf.write s.rx.fld.toNat b).readFrom 0 s.rx.paylen.toNat).isSome = true
      rw [hpl, Memory.readFrom_write_succ b hbs]; rfl
  | noKind hst hb hc hk =>
    simp only [decoderSound, hst' _ hst] at hd
    obtain ⟨⟨⟨-, hkind⟩, -⟩, -, -⟩ := hd
    exact absurd hk (Option.isSome_iff_ne_none.1 hkind)
  | unwritten k hst hb hc hk hp =>
    simp only [decoderSound, hst' _ hst] at hd
    obtain ⟨-, -, hbytes⟩ := hd
    exact absurd hp (Option.isSome_iff_ne_none.1 hbytes)

end Sys2Proof.Machine
end

section
/-! The block as a whole (R49, R60, R235): no operation faults from a sound state, and each leaves the state sound. -/

namespace Sys2Proof.Machine

open Sys2Proof.Claims

/-- An outcome that is no fault, and whose next state, if it has one, is sound. -/
def SoundOutcome : Result → Prop
  | .next t => Sound t
  | .fault _ => False
  | .refused _ => True

theorem SoundOutcome.noFault {r : Result} (h : SoundOutcome r) : NoFault r := by
  rintro f rfl
  exact h

theorem SoundOutcome.whenInitialised {s : State} {run : State → Result} (h : SoundOutcome (run s)) :
    SoundOutcome (whenInitialised s run) := by
  cases hi : s.initialised with
  | false => rw [whenInitialised_of_false hi]; exact trivial
  | true => rw [whenInitialised_of_true hi]; exact h

theorem SoundOutcome.andThen {r : Result} {k : State → Result} (h : SoundOutcome r)
    (hk : ∀ t, Sound t → SoundOutcome (k t)) : SoundOutcome (andThen r k) := by
  cases r with
  | next t => exact hk t h
  | fault f => exact h
  | refused f => exact trivial

theorem Sound.respond {s : State} (h : Sound s) (r : Response) : Sound (respond r s) := h

/-! Received bytes. -/

theorem Effect.stats_bounded {c : Config} {t : Stats} (h : t.bounded c) (o : Effect) : (o.stats c t).bounded c := by
  obtain ⟨-, hobj, herr, htx⟩ := h
  refine ⟨ctrAdd_lt c _ _, ?_, ?_, htx⟩
  · show (if o.event.isSome then ctrAdd c t.rxObjects 1 else t.rxObjects) < _
    split
    · exact ctrAdd_lt c _ _
    · exact hobj
  · show (if o.cause.any isCounted then ctrAdd c t.rxErrors 1 else t.rxErrors) < _
    split
    · exact ctrAdd_lt c _ _
    · exact herr

/-- From a sound state a byte has an effect, which leaves the state sound. -/
theorem rxTake_sound {s : State} (h : Sound s) (b : Byte) :
    ∃ o, Takes b s.decoder (.ok o) ∧ rxTake b s = .next (o.apply s) ∧ Sound (o.apply s) := by
  obtain ⟨hwf, hmtu, hstats, hrx, htx, hd⟩ := h
  obtain ⟨o, ho⟩ := exists_takes b s.decoder
  obtain ⟨e, rfl, hd', hrx'⟩ := ho.sound hwf hd hrx
  exact ⟨e, ho, rxTake_of_takes ho, hwf, hmtu, e.stats_bounded hstats, hrx', htx, hd'⟩

theorem rxTakeAll_sound {s : State} (h : Sound s) (bs : List Byte) : SoundOutcome (rxTakeAll bs s) := by
  obtain ⟨t, ht, hs⟩ := rxTakeAll_total (P := Sound)
    (fun b u hu => let ⟨o, _, ho, hs⟩ := rxTake_sound hu b; ⟨o.apply u, ho, hs⟩) bs h
  rw [ht]; exact hs

/-- Settles O31: the effect of a byte writes nothing outside the decoder. -/
theorem rxByteAlwaysCompletes : Obligations.RxByteAlwaysCompletes := by
  intro s b h hi
  obtain ⟨o, -, ho, -⟩ := rxTake_sound h b
  exact ⟨o.apply s, by rw [exec_rxByte_of_initialised hi, ho], rfl, rfl, sameOutsideDecoder_apply o s⟩

/-- In a sound state the count of a frame in `CS` is its declared length plus one after the byte, so the count test holds
(R186). -/
theorem Takes.cause_ne_errCount {b : Byte} {s : State} {o : Effect} (h : Takes b s.decoder (.ok o))
    (hs : Sound s) : o.cause ≠ some .errCount := by
  obtain ⟨hwf, -, -, -, -, hd⟩ := hs
  have hst' : ∀ st, s.decoder.rxState = st → s.rxState = st := fun _ => id
  cases h with
  | badCount hst hb hc =>
    simp only [decoderSound, hst' _ hst] at hd
    obtain ⟨hacc, hcount, -⟩ := hd
    have hil : instLen s.rx.found s.rx.single ≤ 2 := by unfold instLen; split <;> omega
    have hfit : s.rx.paylen.toNat ≤ s.cfg.maxPayload := hacc.2.1
    have hlen := hacc.length_eq
    have hmax := maxPayload_le_of_wf hwf
    have hcount' : (s.rx.count + 1).toNat = s.rx.len.toNat + 1 := by
      rw [hcount]; exact toNat_add_one (n := 65535) (by omega) le_rfl
    have hc' : countConsistent (s.rx.count + 1) s.rx.len = false := hc
    rw [countConsistent_iff.2 hcount'] at hc'
    cases hc'
  | badHeader c hst hf hc =>
    have hmem := headerFault_cause hc
    rintro ⟨⟩
    simp at hmem
  | _ => nofun

/-- Settles O34: the only byte that could raise `ERR_COUNT` is one for which the test fails. -/
theorem countTestNeverFails : Obligations.CountTestNeverFails := by
  intro s t b hs h hcauses
  obtain ⟨o, ho, rfl⟩ := takes_of_exec h
  have hcause : o.cause.toList = [.errCount] := List.append_cancel_left hcauses
  exact ho.cause_ne_errCount hs (by simpa using hcause)

/-- The kinds without a payload (R99) are those for which the header gives none (R156). -/
theorem mem_of_carriesPayload {k : Kind} (h : carriesPayload k = false) :
    some k ∈ [some Kind.objReq, some .ack, some .nack] := by
  cases k <;> simp [carriesPayload] at h ⊢

/-- Settles O35: the event is read from the registers of an accepted header. -/
theorem deliveredFramesAreLegal : Obligations.DeliveredFramesAreLegal := by
  intro s t b d hs h htrace
  obtain ⟨o, ho, rfl⟩ := takes_of_exec h
  have hevent : (o.event.map Event.deliver).toList = [.deliver d] := List.append_cancel_left htrace
  obtain ⟨e, he, hed⟩ : ∃ e, o.event = some e ∧ e = d := by
    cases hev : o.event with
    | none => simp [hev] at hevent
    | some e => exact ⟨e, rfl, by simpa [hev] using hevent⟩
  obtain ⟨hst, -, k, payload, hk, hp, rfl⟩ := ho.of_event he
  subst hed
  have hst' : s.rxState = .cs := hst
  obtain ⟨-, -, -, -, -, hd⟩ := hs
  simp only [decoderSound, hst'] at hd
  obtain ⟨⟨-, hfit, -, hkind, hreq, hinst⟩, -, -⟩ := hd
  have hlen : payload.length = s.rx.paylen.toNat := Memory.length_of_readFrom hp
  have hnil : some k ∈ [some Kind.objReq, some .ack, some .nack] → payload = [] := fun hmem => by
    have h0 : s.rx.paylen = 0 := hkind (by rw [show rxKind s = some k from hk]; exact hmem)
    rw [h0] at hlen
    exact List.eq_nil_of_length_eq_zero hlen
  refine ⟨hlen, hfit, fun hc => hnil (mem_of_carriesPayload hc), fun hfound => ?_⟩
  have hfound' : s.rx.found = false := hfound
  have hkr : k = .objReq := Option.some.inj (hk.symm.trans (hreq hfound'))
  exact ⟨hkr, hinst (by rw [hfound']; rfl), hnil (by rw [hkr]; simp)⟩

/-! The frame rows. -/

theorem sameOutsideDecoder_trans {s t u : State} (h : sameOutsideDecoder s t) (h' : sameOutsideDecoder t u) :
    sameOutsideDecoder s u := by
  obtain ⟨a1, a2, a3, a4, a5, a6, a7, a8, a9, a10, a11, a12⟩ := h
  obtain ⟨b1, b2, b3, b4, b5, b6, b7, b8, b9, b10, b11, b12⟩ := h'
  exact ⟨b1.trans a1, b2.trans a2, b3.trans a3, b4.trans a4, b5.trans a5, b6.trans a6, b7.trans a7, b8.trans a8,
    b9.trans a9, b10.trans a10, b11.trans a11, b12.trans a12⟩

theorem sameOutsideDecoder_refl (s : State) : sameOutsideDecoder s s :=
  ⟨rfl, rfl, rfl, rfl, rfl, rfl, rfl, rfl, rfl, rfl, rfl, rfl⟩

/-- A frame row takes some bytes behind the guard (log 12, log 13). -/
theorem exec_of_mem_frameOps {i : Instr} (h : i.op ∈ frameOps) (s : State) :
    ∃ run bytes u, exec i s = whenInitialised s run ∧ run s = rxTakeAll bytes u ∧ (u = s ∨ u = respond .done s) := by
  cases i with
  | frameObj | frameObjReq | frameObjAck | frameAck | frameNack => exact ⟨rxFrame _ _ _ _, _, _, rfl, rfl, .inr rfl⟩
  | frameReservedKind5 | frameReservedKind6 | frameReservedKind7 => exact ⟨rxKindCode _, _, _, rfl, rfl, .inl rfl⟩
  | _ => simp [Instr.op, frameOps] at h

/-- Settles O47: byte by byte, soundness is kept and nothing outside the decoder is written. -/
theorem framesAlwaysComplete : Obligations.FramesAlwaysComplete := by
  intro s i hop
  obtain ⟨run, bytes, u, hexec, hrun, hu⟩ := exec_of_mem_frameOps hop s
  refine ⟨fun hs hi => ?_, fun hi => by rw [hexec, whenInitialised_of_false hi]⟩
  have hstart : Sound u ∧ sameOutsideDecoder s u := by
    rcases hu with rfl | rfl
    · exact ⟨hs, sameOutsideDecoder_refl _⟩
    · exact ⟨hs.respond .done, sameOutsideDecoder_refl s⟩
  obtain ⟨t, ht, hsound, hsame⟩ := rxTakeAll_total (P := fun v => Sound v ∧ sameOutsideDecoder s v)
    (fun b v hv => by
      obtain ⟨o, -, ho, hso⟩ := rxTake_sound hv.1 b
      exact ⟨o.apply v, ho, hso, sameOutsideDecoder_trans hv.2 (sameOutsideDecoder_apply o v)⟩) bytes hstart
  exact ⟨t, by rw [hexec, whenInitialised_of_true hi, hrun, ht], hsound, hsame⟩

/-! The other operations. -/

theorem transmit_sound {s : State} (h : Sound s) (k : Kind) (objid : ObjId) (inst : Option Half)
    (payload : List Byte) : SoundOutcome (transmit k objid inst payload s) := by
  obtain ⟨hwf, hmtu, ⟨hrb, hro, hre, htb, hto, hte⟩, hrx, htx, hd⟩ := h
  rcases Nat.lt_or_ge s.cfg.maxPayload payload.length with hp | hp
  · rw [transmit_reject hp]
    exact ⟨hwf, hmtu, ⟨hrb, hro, hre, htb, hto, ctrAdd_lt _ _ _⟩, hrx, htx, hd⟩
  · have hlen : 0 + (frameBytes s.cfg k objid inst payload).length ≤ s.cfg.maxFrame := by
      have := declaredLen_le (inst := inst) hp
      rw [length_frameBytes, Config.maxFrame, maxHeader, checksumLen]; omega
    rw [transmit_accept hp hmtu]
    exact ⟨hwf, hmtu, ⟨hrb, hro, hre, ctrAdd_lt _ _ _, ctrAdd_lt _ _ _, hte⟩, hrx, Memory.within_writeFrom htx hlen, hd⟩

theorem exec_txInstr_sound {s : State} (h : Sound s) (k : Kind) (objid : ObjId) (inst : Option Half)
    (payload : List Byte) : SoundOutcome (exec (txInstr k objid inst payload) s) := by
  rw [exec_txInstr]
  exact SoundOutcome.whenInitialised (transmit_sound h k objid inst payload)

theorem Stats.zero_bounded (c : Config) : Stats.zero.bounded c :=
  have h := Nat.two_pow_pos c.ctrW
  ⟨h, h, h, h, h, h⟩

/-- No operation faults from a sound state, and each leaves it sound. -/
theorem exec_sound {s : State} (h : Sound s) (i : Instr) : SoundOutcome (exec i s) := by
  by_cases hop : i.op ∈ frameOps
  · obtain ⟨run, bytes, u, hexec, hrun, hu⟩ := exec_of_mem_frameOps hop s
    have hsu : Sound u := hu.elim (· ▸ h) (· ▸ h.respond .done)
    rw [hexec]
    exact SoundOutcome.whenInitialised (hrun ▸ rxTakeAll_sound hsu bytes)
  cases i with
  | init mtu =>
    obtain ⟨hwf, -, -, -, -, -⟩ := h
    show SoundOutcome (if mtu = 0 then _ else _)
    split
    · exact trivial
    · next hm => exact ⟨hwf, hm, Stats.zero_bounded _, Memory.within_nil _, Memory.within_nil _, trivial⟩
  | rxByte b =>
    obtain ⟨o, -, ho, hs⟩ := rxTake_sound h b
    exact SoundOutcome.whenInitialised (by rw [ho]; exact hs)
  | crcInit => rw [exec_crcInit]; exact SoundOutcome.whenInitialised h
  | crcUpd b => rw [exec_crcUpd]; exact SoundOutcome.whenInitialised h
  | crcBlk bytes => rw [exec_crcBlk]; exact SoundOutcome.whenInitialised h
  | statGet => rw [exec_statGet]; exact SoundOutcome.whenInitialised h
  | statReset =>
    obtain ⟨hwf, hmtu, -, hrx, htx, hd⟩ := h
    rw [exec_statReset]
    exact SoundOutcome.whenInitialised ⟨hwf, hmtu, Stats.zero_bounded _, hrx, htx, hd⟩
  | txObj objid inst payload => exact exec_txInstr_sound h .obj objid inst payload
  | txObjReq objid inst payload => exact exec_txInstr_sound h .objReq objid inst payload
  | txObjAck objid inst payload => exact exec_txInstr_sound h .objAck objid inst payload
  | txAck objid inst payload => exact exec_txInstr_sound h .ack objid inst payload
  | txNack objid inst payload => exact exec_txInstr_sound h .nack objid inst payload
  | reservedOp7 | reservedOpD | reservedOpE | reservedOpF => exact trivial
  | frameObj | frameObjReq | frameObjAck | frameAck | frameNack | frameReservedKind5 | frameReservedKind6
  | frameReservedKind7 => simp [Instr.op, frameOps] at hop

/-- Soundness says nothing of the host's part. -/
theorem Sound.of_hostOnly {s t : State} (h : Sound s) (ht : hostOnly s t) : Sound t := by
  obtain ⟨env, rfl⟩ := ht
  exact h

theorem issueOp_sound {s : State} (h : Sound s) (op : TxOp) : SoundOutcome (issueOp op s) := by
  unfold issueOp
  split <;> exact SoundOutcome.whenInitialised (transmit_sound h _ _ _ _)

theorem hostMove_sound {s : State} (h : Sound s) (m : Move) : SoundOutcome (hostMove m s) := by
  by_cases hm : ∃ k, m = .issue k
  · obtain ⟨k, rfl⟩ := hm
    obtain hnext | ⟨op, f, hf, hmove⟩ := hostMove_issue_cases k s
    · rw [hnext]; exact h
    · rw [hmove]
      exact (issueOp_sound h op).andThen fun u hu => hu.of_hostOnly (hf u)
  · obtain ⟨t, ht, hhost⟩ := hostMove_of_not_issue (fun k hk => hm ⟨k, hk⟩) s
    rw [ht]; exact h.of_hostOnly hhost

theorem runInput_sound {s : State} (h : Sound s) (j : Input) : SoundOutcome (runInput j s) := by
  cases j with
  | move m => exact hostMove_sound h m
  | command word =>
    show SoundOutcome (runCommand word s)
    unfold runCommand
    split
    · exact trivial
    · next i _ =>
      unfold runInstr
      split
      · exact h
      · exact exec_sound h i

/-- No step faults from a sound state, and each leaves it sound. -/
theorem step_sound {s : State} (h : Sound s) : SoundOutcome (step s) := by
  obtain hidle | ⟨j, rest, -, hrun⟩ := step_cases s
  · rw [hidle]; exact h
  · rw [hrun]; exact runInput_sound (s := { s with inputs := rest }) h j

/-- Settles O51: a step from a sound state has a sound outcome. -/
theorem noStepFaults : Obligations.NoStepFaults := fun _ h => (step_sound h).noFault

/-- Settles O49: nothing is in progress, and the two buffers are empty. -/
theorem resetStateIsSound : Obligations.ResetStateIsSound :=
  ⟨⟨by decide, by decide, Stats.zero_bounded _, Memory.within_nil _, Memory.within_nil _, trivial⟩,
    ⟨by decide, fun _ _ h => (List.not_mem_nil h).elim, by decide, nofun⟩⟩

end Sys2Proof.Machine
end

section
/-! What an operation writes of the whole state (R34, R43, R67): the frame of every operation but `INIT`, what `INIT` resets,
and that the receive and the transmit path do not meet (R72, R210). -/

namespace Sys2Proof.Machine

open Sys2Proof.Claims

/-- `t` is `s` but for the block's registers, buffers, counters and ports, and no output of `s` is taken back. -/
def blockOnly (s t : State) : Prop :=
  t.cfg = s.cfg ∧ t.mtu = s.mtu ∧ t.inputs = s.inputs ∧ t.env = s.env ∧ s.trace <+: t.trace ∧ s.causes <+: t.causes

theorem blockOnly.refl (s : State) : blockOnly s s := ⟨rfl, rfl, rfl, rfl, List.prefix_rfl, List.prefix_rfl⟩

theorem blockOnly.trans {s t u : State} (h : blockOnly s t) (h' : blockOnly t u) : blockOnly s u := by
  obtain ⟨a1, a2, a3, a4, a5, a6⟩ := h
  obtain ⟨b1, b2, b3, b4, b5, b6⟩ := h'
  exact ⟨b1.trans a1, b2.trans a2, b3.trans a3, b4.trans a4, a5.trans b5, a6.trans b6⟩

theorem blockOnly_apply (o : Effect) (s : State) : blockOnly s (o.apply s) :=
  ⟨rfl, rfl, rfl, rfl, List.prefix_append _ _, List.prefix_append _ _⟩

theorem blockOnly_rxTakeAll {bs : List Byte} {s t : State} (h : rxTakeAll bs s = .next t) : blockOnly s t :=
  rxTakeAll_induct (R := blockOnly) blockOnly.refl (fun _ _ _ => blockOnly.trans)
    (fun _ u _ hb => by obtain ⟨o, -, rfl⟩ := takes_of_rxTake hb; exact blockOnly_apply o u) h

theorem blockOnly_transmit {s t : State} {k : Kind} {objid : ObjId} {inst : Option Half} {payload : List Byte}
    (h : transmit k objid inst payload s = .next t) : blockOnly s t := by
  obtain ⟨-, rfl⟩ | ⟨-, -, rfl⟩ := transmit_eq_next h
  · exact blockOnly.refl s
  · exact ⟨rfl, rfl, rfl, rfl, List.prefix_append _ _, List.prefix_rfl⟩

theorem blockOnly_exec_frame {i : Instr} (hop : i.op ∈ frameOps) {s t : State} (h : exec i s = .next t) :
    blockOnly s t := by
  obtain ⟨run, bytes, u, hexec, hrun, hu⟩ := exec_of_mem_frameOps hop s
  obtain ⟨-, hnext⟩ := whenInitialised_eq_next (hexec ▸ h)
  have hsu : blockOnly s u := hu.elim (· ▸ blockOnly.refl s) (· ▸ blockOnly.refl s)
  exact hsu.trans (blockOnly_rxTakeAll (hrun ▸ hnext))

theorem blockOnly_exec_tx {s t : State} {k : Kind} {objid : ObjId} {inst : Option Half} {payload : List Byte}
    (h : exec (txInstr k objid inst payload) s = .next t) : blockOnly s t := by
  rw [exec_txInstr] at h
  exact blockOnly_transmit (whenInitialised_eq_next h).2

/-- No operation but `INIT` writes anything but the block, and none takes an output back. -/
theorem blockOnly_exec {i : Instr} (hinit : i.op ≠ .init) {s t : State} (h : exec i s = .next t) : blockOnly s t := by
  by_cases hop : i.op ∈ frameOps
  · exact blockOnly_exec_frame hop h
  cases i with
  | init => exact absurd rfl hinit
  | rxByte b =>
    obtain ⟨o, -, rfl⟩ := takes_of_exec h
    exact blockOnly_apply o s
  | crcInit =>
    rw [exec_crcInit] at h
    obtain ⟨-, ⟨⟩⟩ := whenInitialised_eq_next h
    exact blockOnly.refl s
  | crcUpd b =>
    rw [exec_crcUpd] at h
    obtain ⟨-, ⟨⟩⟩ := whenInitialised_eq_next h
    exact blockOnly.refl s
  | crcBlk bytes =>
    rw [exec_crcBlk] at h
    obtain ⟨-, ⟨⟩⟩ := whenInitialised_eq_next h
    exact blockOnly.refl s
  | statGet =>
    rw [exec_statGet] at h
    obtain ⟨-, ⟨⟩⟩ := whenInitialised_eq_next h
    exact blockOnly.refl s
  | statReset =>
    rw [exec_statReset] at h
    obtain ⟨-, ⟨⟩⟩ := whenInitialised_eq_next h
    exact blockOnly.refl s
  | txObj objid inst payload => exact blockOnly_exec_tx (k := .obj) h
  | txObjReq objid inst payload => exact blockOnly_exec_tx (k := .objReq) h
  | txObjAck objid inst payload => exact blockOnly_exec_tx (k := .objAck) h
  | txAck objid inst payload => exact blockOnly_exec_tx (k := .ack) h
  | txNack objid inst payload => exact blockOnly_exec_tx (k := .nack) h
  | reservedOp7 | reservedOpD | reservedOpE | reservedOpF => cases h
  | frameObj | frameObjReq | frameObjAck | frameAck | frameNack | frameReservedKind5 | frameReservedKind6
  | frameReservedKind7 => simp [Instr.op, frameOps] at hop

/-- Settles O21: `mtu` is in the frame of every operation but `INIT`. -/
theorem onlyInitWritesMtu : Obligations.OnlyInitWritesMtu := by
  intro s t i hinit h
  obtain ⟨-, hmtu, -⟩ := blockOnly_exec hinit h
  exact hmtu

/-! `INIT` (R230, R340 to R342). -/

theorem exec_init {mtu : Half} (h : mtu ≠ 0) (s : State) :
    exec (.init mtu) s = .next (respond .done { blockReset s with mtu := mtu, initialised := true }) :=
  if_neg h

theorem eq_of_exec_init {mtu : Half} {s t : State} (h : exec (.init mtu) s = .next t) :
    mtu ≠ 0 ∧ t = respond .done { blockReset s with mtu := mtu, initialised := true } := by
  by_cases hm : mtu = 0
  · rw [hm, exec_init_zero] at h; cases h
  · rw [exec_init hm] at h; exact ⟨hm, (Host.Outcome.next.inj h).symm⟩

/-- Settles O22: the frame of every operation but `INIT`, and what `INIT` frees. -/
theorem operationsLeaveTheHostAlone : Obligations.OperationsLeaveTheHostAlone := by
  intro s t i h
  by_cases hinit : i.op = .init
  · cases i with
    | init mtu =>
      obtain ⟨-, rfl⟩ := eq_of_exec_init h
      exact ⟨rfl, rfl, List.prefix_rfl, List.prefix_rfl, fun hne => absurd rfl hne, fun _ => ⟨rfl, rfl⟩⟩
    | _ => cases hinit
  · obtain ⟨hcfg, -, hinputs, henv, htrace, hcauses⟩ := blockOnly_exec hinit h
    exact ⟨hcfg, hinputs, htrace, hcauses, fun _ => henv, fun heq => absurd heq hinit⟩

theorem Task.isTxn_iff (t : Task) : t.isTxn = true ↔ t.role = .ackedSend ∨ t.role = .request := by
  unfold Task.isTxn
  cases t.role <;> simp

theorem Task.isTxn_eq_false_iff (t : Task) : t.isTxn = false ↔ t.role = .reply ∨ t.role = .send := by
  unfold Task.isTxn
  cases t.role <;> simp

/-- Settles O16: what is left of the tasks are those that are not the transaction's. -/
theorem initResetsTheBlock : Obligations.InitResetsTheBlock := by
  refine ⟨exec_init_zero, fun s m hm => ?_⟩
  refine ⟨_, s.env.tasks.filter (fun t => !t.isTxn), exec_init hm s, rfl, rfl, rfl, rfl, rfl, rfl, rfl, rfl, rfl, rfl,
    rfl, List.filter_sublist, fun u => ?_⟩
  rw [List.mem_filter, Bool.not_eq_true', Task.isTxn_eq_false_iff]

/-! The encoder (R200, R210). -/

/-- Settles O41: of the branch conditions and of what is written no decoder register is a part. -/
theorem transmitIgnoresTheDecoder : Obligations.TransmitIgnoresTheDecoder := by
  intro s rxState regs rxBuf k objid inst payload
  rw [exec_txInstr, exec_txInstr]
  refine whenInitialised_mapNext (f := fun t => { t with rxState := rxState, rx := regs, rxBuf := rxBuf }) rfl ?_
  rcases Nat.lt_or_ge s.cfg.maxPayload payload.length with hp | hp
  · rw [transmit_reject hp, transmit_reject (s := { s with rxState := rxState, rx := regs, rxBuf := rxBuf }) hp]; rfl
  · by_cases hm : s.mtu = 0
    · rw [transmit_zeroMtu hp hm,
        transmit_zeroMtu (s := { s with rxState := rxState, rx := regs, rxBuf := rxBuf }) hp hm]
      rfl
    · rw [transmit_accept hp hm, transmit_accept (s := { s with rxState := rxState, rx := regs, rxBuf := rxBuf }) hp hm]
      rfl

theorem toNat_mtu_ne_zero {m : Half} (h : m ≠ 0) : m.toNat ≠ 0 := fun h0 => h (BitVec.eq_of_toNat_eq h0)

/-- With legal parameters the length of a frame that is accepted fits `tx_len` (R185). -/
theorem length_frameBytes_lt {c : Config} (hwf : c.wf = true) {payload : List Byte} (hp : payload.length ≤ c.maxPayload)
    (k : Kind) (objid : ObjId) (inst : Option Half) : (frameBytes c k objid inst payload).length < 65536 := by
  have hmax := maxPayload_le_of_wf hwf
  have hlen := declaredLen_le (inst := inst) hp
  rw [length_frameBytes]; omega

/-- A frame that is accepted, with its length as a number (R200). -/
theorem transmitted_eq {s : State} {frame : List Byte} (h : frame.length < 65536) :
    transmitted frame s
      = { s with
          response := .ok
          txBuf := s.txBuf.writeFrom 0 frame
          txLen := BitVec.ofNat 16 frame.length
          trace := s.trace ++ (chunksOf frame.length s.mtu.toNat frame).map Event.sink
          stats := { s.stats with
            txBytes := ctrAdd s.cfg s.stats.txBytes frame.length
            txObjects := ctrAdd s.cfg s.stats.txObjects 1 } } := by
  rw [transmitted, BitVec.toNat_ofNat, Nat.mod_eq_of_lt h]; rfl

/-- Settles O37: the buffer is the old one with the frame written from index 0, and the chunks are those of R206. -/
theorem transmitSendsTheFrame : Obligations.TransmitSendsTheFrame := by
  intro s k objid inst payload hi hm hwf hp frame
  refine ⟨s.txBuf.writeFrom 0 frame, chunksOf frame.length s.mtu.toNat frame, ?_,
    flatten_chunksOf (toNat_mtu_ne_zero hm) le_rfl, Memory.readFrom_writeFrom _ _ _,
    fun a ha => Memory.read_writeFrom_of_ge (by rwa [Nat.zero_add])⟩
  rw [exec_txInstr, whenInitialised_of_true hi, transmit_accept hp hm,
    transmitted_eq (length_frameBytes_lt hwf hp k objid inst)]

/-- Settles O42: the effect of the byte is the same before and after the transmission, which leaves the decoder's part alone,
and the two write different fields. -/
theorem receiveAndTransmitCommute : Obligations.ReceiveAndTransmitCommute := by
  intro s b k objid inst payload hs hi
  obtain ⟨o, ho, hr, -⟩ := rxTake_sound hs b
  have hmtu : s.mtu ≠ 0 := hs.2.1
  have hbyte : ∀ x : State, x.initialised = true → x.decoder = s.decoder → exec (.rxByte b) x = .next (o.apply x) :=
    fun x hx hd => by
      rw [exec_rxByte_of_initialised hx]; exact rxTake_of_takes (hd ▸ ho)
  have htx : ∀ x : State, x.initialised = true →
      exec (txInstr k objid inst payload) x = transmit k objid inst payload x := fun x hx => by
    rw [exec_txInstr, whenInitialised_of_true hx]
  rcases Nat.lt_or_ge s.cfg.maxPayload payload.length with hp | hp
  · refine ⟨o.apply s, { s with response := .fail, stats := s.stats.addTxError s.cfg }, _, _,
      hbyte s hi rfl, (htx s hi).trans (transmit_reject hp),
      (htx (o.apply s) hi).trans (transmit_reject (s := o.apply s) hp), hbyte _ hi rfl,
      ⟨rfl, rfl, rfl, rfl, rfl, rfl, rfl⟩, ⟨rfl, rfl, rfl, rfl, rfl, rfl, rfl⟩, rfl, rfl, rfl, rfl, rfl⟩
  · refine ⟨o.apply s, transmitted (frameBytes s.cfg k objid inst payload) s, _, _,
      hbyte s hi rfl, (htx s hi).trans (transmit_accept hp hmtu),
      (htx (o.apply s) hi).trans (transmit_accept (s := o.apply s) hp hmtu), hbyte _ hi rfl,
      ⟨rfl, rfl, rfl, rfl, rfl, rfl, rfl⟩, ⟨rfl, rfl, rfl, rfl, rfl, rfl, rfl⟩, rfl, rfl, rfl, rfl, rfl⟩

end Sys2Proof.Machine
end

section
/-! A whole frame, byte by byte (R187, R189): `receiving` is the state in the middle of a frame, with the running checksum and
the counts as the bytes so far determine them. Each field of the frame is one lemma, and a frame is their chain. -/

namespace Sys2Proof.Machine

open Sys2Proof.Claims

/-! A field put together from its bytes, and the type byte (R93, R101). -/

theorem putByte16_le16 (v : Half) : putByte16 (putByte16 0 (v.extractLsb' 0 8) 0) (v.extractLsb' 8 8) 1 = v := by
  refine BitVec.eq_of_getLsbD_eq fun i hi => ?_
  simp only [putByte16]
  grind

theorem putByte32_le32 (v : ObjId) :
    putByte32 (putByte32 (putByte32 (putByte32 0 (v.extractLsb' 0 8) 0) (v.extractLsb' 8 8) 1) (v.extractLsb' 16 8) 2)
      (v.extractLsb' 24 8) 3 = v := by
  refine BitVec.eq_of_getLsbD_eq fun i hi => ?_
  simp only [putByte32]
  grind

/-- The constraints of Table P on the version tag and the kind codes. -/
theorem version_of_wf {c : Config} (h : c.wf = true) : c.verVal &&& ~~~c.verMask = 0 := by
  simp only [Config.wf, Bool.and_eq_true, beq_iff_eq] at h
  obtain ⟨⟨⟨⟨-, hver⟩, -⟩, -⟩, -⟩ := h
  exact hver

theorem code_of_wf {c : Config} (h : c.wf = true) (k : Kind) : codeOf c k &&& c.verMask = 0 := by
  simp only [Config.wf, Bool.and_eq_true, List.all_eq_true, beq_iff_eq] at h
  obtain ⟨⟨⟨-, hcodes⟩, -⟩, -⟩ := h
  refine hcodes _ ?_
  cases k <;> simp [codeOf, Config.kindCodes]

theorem codeOf_injective_of_wf {c : Config} (h : c.wf = true) {k k' : Kind} (hk : codeOf c k = codeOf c k') : k = k' := by
  simp only [Config.wf, Bool.and_eq_true, decide_eq_true_eq] at h
  obtain ⟨⟨-, hnodup⟩, -⟩ := h
  have hmem : ∀ k, k ∈ [Kind.obj, .objReq, .objAck, .ack, .nack] := fun k => by cases k <;> decide
  have hcodes : ([Kind.obj, .objReq, .objAck, .ack, .nack].map (codeOf c)).Nodup := hnodup
  exact List.inj_on_of_nodup_map hcodes (hmem k) (hmem k') hk

/-- A code outside the mask is read back, with the right version tag, from its type byte (R93). -/
theorem typeByte_split {ver mask code : Byte} (hv : ver &&& ~~~mask = 0) (hc : code &&& mask = 0) :
    (ver ||| code) &&& mask = ver ∧ (ver ||| code) &&& ~~~mask = code := by
  have hbits : ∀ i < 8, (ver.getLsbD i && !mask.getLsbD i) = false ∧ (code.getLsbD i && mask.getLsbD i) = false :=
    fun i hi =>
      ⟨by simpa [hi] using congrArg (fun v => BitVec.getLsbD v i) hv,
        by simpa [hi] using congrArg (fun v => BitVec.getLsbD v i) hc⟩
  constructor
  · refine BitVec.eq_of_getLsbD_eq fun i hi => ?_
    have := hbits i hi
    simp only [BitVec.getLsbD_and, BitVec.getLsbD_or]
    grind
  · refine BitVec.eq_of_getLsbD_eq fun i hi => ?_
    have := hbits i hi
    simp only [BitVec.getLsbD_and, BitVec.getLsbD_or, BitVec.getLsbD_not, hi, decide_true, Bool.true_and]
    grind

theorem versionOk_typeByte {c : Config} (h : c.wf = true) (k : Kind) : versionOk c (typeByte c k) = true :=
  versionOk_iff.2 (typeByte_split (version_of_wf h) (code_of_wf h k)).1

theorem kindOf_typeByte {c : Config} (h : c.wf = true) (k : Kind) : kindOf c (typeByte c k) = some k := by
  have hcode : codeOf c k = typeByte c k &&& ~~~c.verMask :=
    (typeByte_split (version_of_wf h) (code_of_wf h k)).2.symm
  obtain ⟨k', hk'⟩ := Option.isSome_iff_exists.1 (kindOf_isSome_iff.2 ⟨k, hcode⟩)
  rw [hk', codeOf_injective_of_wf h ((codeOf_of_kindOf hk').trans hcode.symm)]

/-! In the middle of a frame. -/

/-- `s` in the middle of a frame of which the bytes `pre` have been received: the running checksum is theirs (R23), the count
is theirs (R24), and each has been counted (R36). -/
def receiving (s : State) (pre : List Byte) (st : RxState) (rx : RxRegs) (buf : Memory) : State :=
  { s with
    response := .done
    rxState := st
    rx := { rx with cs := crc8Block s.cfg.crcPoly s.cfg.crcInit pre, count := BitVec.ofNat 16 pre.length }
    rxBuf := buf
    stats := { s.stats with rxBytes := ctrAdd s.cfg s.stats.rxBytes pre.length } }

section
variable {s : State} {pre : List Byte} {st st' : RxState} {rx rx' : RxRegs} {buf buf' : Memory} {b : Byte}

/-- A byte that goes on with the frame: it is folded, counted, and changes the registers to `rx'`. -/
theorem rxTake_receiving
    (h : Takes b (receiving s pre st rx buf).decoder
      (.ok ⟨st', { rx' with
        count := BitVec.ofNat 16 pre.length + 1
        cs := crc8Byte s.cfg.crcPoly (crc8Block s.cfg.crcPoly s.cfg.crcInit pre) b }, buf', none, none⟩)) :
    rxTake b (receiving s pre st rx buf) = .next (receiving s (pre ++ [b]) st' rx' buf') := by
  have hcount : BitVec.ofNat 16 pre.length + 1 = BitVec.ofNat 16 (pre.length + 1) := BitVec.ofNat_add_ofNat _ _
  rw [rxTake_of_takes h, outcomeOn, Effect.apply_quiet, receiving, receiving, crc8Block_snoc, List.length_append,
    List.length_singleton, hcount]
  simp only [Stats.addRxByte, ctrAdd_ctrAdd]

/-- One byte, then the rest of a run. -/
theorem rxTakeAll_cons {t : State} {bs : List Byte} {r : Result} (h : rxTake b s = .next t) (hr : rxTakeAll bs t = r) :
    rxTakeAll (b :: bs) s = r := by
  rw [rxTakeAll, h, andThen_next, hr]

theorem rxTakeAll_one {t : State} (h : rxTake b s = .next t) : rxTakeAll [b] s = .next t := rxTakeAll_cons h rfl

/-- One field, then the rest of a run. -/
theorem rxTakeAll_field {t : State} {xs ys : List Byte} {r : Result} (h : rxTakeAll xs s = .next t)
    (hr : rxTakeAll ys t = r) : rxTakeAll (xs ++ ys) s = r := by
  rw [rxTakeAll_append, h, andThen_next, hr]

/-- The sync byte (R152). -/
theorem rxTake_sync (hs : s.rxState = .sync) :
    rxTake s.cfg.syncVal s = .next (receiving s [s.cfg.syncVal] .type s.rx s.rxBuf) := by
  have h : Takes s.cfg.syncVal s.decoder _ := .synced hs rfl
  rw [rxTake_of_takes h, outcomeOn, Effect.apply_quiet]; rfl

/-- The type byte of a kind (R153). -/
theorem rxTake_typeByte (hwf : s.cfg.wf = true) (k : Kind) :
    rxTake (typeByte s.cfg k) (receiving s pre .type rx buf)
      = .next (receiving s (pre ++ [typeByte s.cfg k]) .size { rx with type := typeByte s.cfg k, len := 0, fld := 0 }
          buf) :=
  rxTake_receiving (.typed k rfl (versionOk_typeByte hwf k) (kindOf_typeByte hwf k))

/-- The two bytes of a declared length in range (R154). -/
theorem rxTakeAll_length {len : Half} (hlen : lenInRange s.cfg len = true) :
    rxTakeAll (le16 len) (receiving s pre .size { rx with len := 0, fld := 0 } buf)
      = .next (receiving s (pre ++ le16 len) .objid { rx with len := len, fld := 0, objid := 0 } buf) := by
  have hval := putByte16_le16 len
  have hr : lenInRange s.cfg (putByte16 (putByte16 0 (len.extractLsb' 0 8) 0) (len.extractLsb' 8 8) 1) = true := by
    rw [hval]; exact hlen
  have hlow : rxTake (len.extractLsb' 0 8) (receiving s pre .size { rx with len := 0, fld := 0 } buf)
      = .next (receiving s (pre ++ [len.extractLsb' 0 8]) .size
          { rx with len := putByte16 0 (len.extractLsb' 0 8) 0, fld := 1 } buf) :=
    rxTake_receiving (.sizeMore rfl (show (0 : Half) ≠ 1 by decide))
  have hhigh : rxTake (len.extractLsb' 8 8) (receiving s (pre ++ [len.extractLsb' 0 8]) .size
        { rx with len := putByte16 0 (len.extractLsb' 0 8) 0, fld := 1 } buf)
      = .next (receiving s (pre ++ [len.extractLsb' 0 8] ++ [len.extractLsb' 8 8]) .objid
          { rx with
            len := putByte16 (putByte16 0 (len.extractLsb' 0 8) 0) (len.extractLsb' 8 8) 1, fld := 0, objid := 0 }
          buf) :=
    rxTake_receiving (.sized rfl rfl hr)
  rw [hval, List.append_assoc] at hhigh
  exact rxTakeAll_cons hlow (rxTakeAll_one hhigh)

/-- The object id after its first three bytes. -/
def objidPart (objid : ObjId) : ObjId :=
  putByte32 (putByte32 (putByte32 0 (objid.extractLsb' 0 8) 0) (objid.extractLsb' 8 8) 1) (objid.extractLsb' 16 8) 2

/-- Its last byte completes it. -/
theorem putByte32_objidPart (objid : ObjId) : putByte32 (objidPart objid) (objid.extractLsb' 24 8) 3 = objid :=
  putByte32_le32 objid

/-- The first three bytes of the object id (R155). -/
theorem rxTakeAll_objidPart (objid : ObjId) :
    rxTakeAll ((le32 objid).take 3) (receiving s pre .objid { rx with fld := 0, objid := 0 } buf)
      = .next (receiving s (pre ++ (le32 objid).take 3) .objid { rx with fld := 3, objid := objidPart objid } buf) := by
  have hmore : ∀ (pre : List Byte) (b : Byte) (id : ObjId) (f : Half), f ≠ 3 →
      rxTake b (receiving s pre .objid { rx with fld := f, objid := id } buf)
        = .next (receiving s (pre ++ [b]) .objid { rx with fld := f + 1, objid := putByte32 id b f } buf) :=
    fun _ _ _ _ hf => rxTake_receiving (.idMore rfl hf)
  refine rxTakeAll_cons (hmore _ _ _ _ (by decide)) (rxTakeAll_cons (hmore _ _ _ _ (by decide))
    (rxTakeAll_cons (hmore _ _ _ _ (by decide)) ?_))
  rw [List.append_assoc, List.append_assoc]; rfl

/-- The two bytes of an instance id (R158). -/
theorem rxTakeAll_instid (v : Half) :
    rxTakeAll (le16 v) (receiving s pre .instid { rx with fld := 0, instid := 0 } buf)
      = .next (receiving s (pre ++ le16 v) (if 0 < rx.paylen.toNat then .data else .cs)
          { rx with fld := 0, instid := v } buf) := by
  have hval := putByte16_le16 v
  have hlow : rxTake (v.extractLsb' 0 8) (receiving s pre .instid { rx with fld := 0, instid := 0 } buf)
      = .next (receiving s (pre ++ [v.extractLsb' 0 8]) .instid
          { rx with fld := 1, instid := putByte16 0 (v.extractLsb' 0 8) 0 } buf) :=
    rxTake_receiving (.instMore rfl (show (0 : Half) ≠ 1 by decide))
  have hhigh : rxTake (v.extractLsb' 8 8) (receiving s (pre ++ [v.extractLsb' 0 8]) .instid
        { rx with fld := 1, instid := putByte16 0 (v.extractLsb' 0 8) 0 } buf)
      = .next (receiving s (pre ++ [v.extractLsb' 0 8] ++ [v.extractLsb' 8 8])
          (if 0 < rx.paylen.toNat then .data else .cs)
          { rx with fld := 0, instid := putByte16 (putByte16 0 (v.extractLsb' 0 8) 0) (v.extractLsb' 8 8) 1 } buf) :=
    rxTake_receiving (.instLast rfl rfl)
  rw [hval, List.append_assoc] at hhigh
  exact rxTakeAll_cons hlow (rxTakeAll_one hhigh)

/-- The payload behind what is already stored (R159): `done` is in the buffer, `todo` follows. -/
theorem rxTakeAll_data {done todo : List Byte} (hbuf : buf.readFrom 0 done.length = some done) (htodo : todo ≠ [])
    (hmax : (done ++ todo).length ≤ s.cfg.maxPayload) (hlt : (done ++ todo).length < 65536)
    (hpl : rx.paylen.toNat = (done ++ todo).length) :
    ∃ buf', rxTakeAll todo (receiving s pre .data { rx with fld := BitVec.ofNat 16 done.length } buf)
        = .next (receiving s (pre ++ todo) .cs { rx with fld := BitVec.ofNat 16 (done ++ todo).length } buf')
      ∧ buf'.readFrom 0 (done ++ todo).length = some (done ++ todo) := by
  induction todo generalizing done buf pre with
  | nil => exact absurd rfl htodo
  | cons b todo ih =>
    rw [List.length_append, List.length_cons] at hmax hlt hpl
    have hfld : (BitVec.ofNat 16 done.length).toNat = done.length := by
      rw [BitVec.toNat_ofNat]; exact Nat.mod_eq_of_lt (by omega)
    have hsucc : BitVec.ofNat 16 done.length + 1 = BitVec.ofNat 16 (done ++ [b]).length := by
      rw [List.length_append]; exact BitVec.ofNat_add_ofNat _ _
    have hfit : (BitVec.ofNat 16 done.length).toNat < s.cfg.maxPayload := by omega
    have hread : (buf.write done.length b).readFrom 0 (done ++ [b]).length = some (done ++ [b]) := by
      rw [List.length_append]; exact Memory.readFrom_write_succ b hbuf
    have hlast : BitVec.ofNat 16 done.length + 1 = rx.paylen ↔ todo = [] := by
      rw [hsucc, ← BitVec.toNat_inj, BitVec.toNat_ofNat, hpl, List.length_append,
        Nat.mod_eq_of_lt (by simp only [List.length_singleton]; omega), ← List.length_eq_zero_iff]
      simp only [List.length_singleton]; omega
    by_cases hnil : todo = []
    · have htake : rxTake b (receiving s pre .data { rx with fld := BitVec.ofNat 16 done.length } buf)
          = .next (receiving s (pre ++ [b]) .cs { rx with fld := BitVec.ofNat 16 done.length + 1 }
              (buf.write (BitVec.ofNat 16 done.length).toNat b)) :=
        rxTake_receiving (.dataLast rfl hfit (hlast.2 hnil))
      subst hnil
      rw [hfld, hsucc] at htake
      exact ⟨buf.write done.length b, rxTakeAll_one htake, hread⟩
    · have htake : rxTake b (receiving s pre .data { rx with fld := BitVec.ofNat 16 done.length } buf)
          = .next (receiving s (pre ++ [b]) .data { rx with fld := BitVec.ofNat 16 done.length + 1 }
              (buf.write (BitVec.ofNat 16 done.length).toNat b)) :=
        rxTake_receiving (.dataMore rfl hfit (mt hlast.1 hnil))
      rw [hfld, hsucc] at htake
      have hassoc : done ++ [b] ++ todo = done ++ b :: todo := List.append_assoc _ _ _
      have hlen : (done ++ [b] ++ todo).length = done.length + (todo.length + 1) := by simp [hassoc]
      obtain ⟨buf', hrest, hread'⟩ := ih (pre := pre ++ [b]) hread hnil (hlen ▸ hmax) (hlen ▸ hlt) (hpl.trans hlen.symm)
      rw [hassoc] at hrest hread'
      rw [List.append_assoc] at hrest
      exact ⟨buf', rxTakeAll_cons htake hrest, hread'⟩

/-- The whole payload, empty or not (R157, R159). -/
theorem rxTakeAll_payload {payload : List Byte} (hmax : payload.length ≤ s.cfg.maxPayload) (hlt : payload.length < 65536)
    (hpl : rx.paylen.toNat = payload.length) :
    ∃ buf', rxTakeAll payload
          (receiving s pre (if 0 < rx.paylen.toNat then .data else .cs) { rx with fld := 0 } buf)
        = .next (receiving s (pre ++ payload) .cs { rx with fld := BitVec.ofNat 16 payload.length } buf')
      ∧ buf'.readFrom 0 payload.length = some payload := by
  by_cases hnil : payload = []
  · subst hnil
    have hst : (if 0 < rx.paylen.toNat then RxState.data else .cs) = .cs := by rw [hpl]; rfl
    exact ⟨buf, by rw [hst, List.append_nil]; rfl, rfl⟩
  · have hst : (if 0 < rx.paylen.toNat then RxState.data else .cs) = .data := by
      rw [hpl]; exact if_pos (List.length_pos_iff.2 hnil)
    rw [hst]
    exact rxTakeAll_data (done := []) rfl hnil hmax hlt hpl

/-- The checksum byte of a frame of which everything before it has been received (R160). -/
theorem rxTake_checksum {k : Kind} {payload : List Byte} (hlt : pre.length + 1 < 65536)
    (hlen : rx.len = BitVec.ofNat 16 pre.length) (hk : kindOf s.cfg rx.type = some k)
    (hp : buf.readFrom 0 rx.paylen.toNat = some payload) :
    rxTake (crc8Block s.cfg.crcPoly s.cfg.crcInit pre) (receiving s pre .cs rx buf)
      = .next (Effect.apply
          ⟨.sync, (receiving s pre .cs rx buf).decoder.counted, buf, some ((receiving s pre .cs rx buf).decoder.event k payload),
            none⟩
          (receiving s pre .cs rx buf)) := by
  have hcount : BitVec.ofNat 16 pre.length + 1 = BitVec.ofNat 16 (pre.length + 1) := BitVec.ofNat_add_ofNat _ _
  have hc : countConsistent (BitVec.ofNat 16 pre.length + 1) rx.len = true := by
    rw [countConsistent_iff, hcount, hlen, BitVec.toNat_ofNat, BitVec.toNat_ofNat, Nat.mod_eq_of_lt hlt,
      Nat.mod_eq_of_lt (by omega)]
  have h : Takes _ (receiving s pre .cs rx buf).decoder _ := .complete k payload rfl rfl hc hk hp
  exact rxTake_of_takes h

end

/-! A frame about a known object. -/

/-- The header up to the last byte of the object id (R91). -/
def headerBytes (c : Config) (k : Kind) (len : Half) (objid : ObjId) : List Byte :=
  c.syncVal :: typeByte c k :: (le16 len ++ (le32 objid).take 3)

theorem frameBody_eq_headerBytes (c : Config) (k : Kind) (objid : ObjId) (inst : Option Half) (payload : List Byte) :
    frameBody c k objid inst payload
      = headerBytes c k (BitVec.ofNat 16 (declaredLen inst payload)) objid
          ++ objid.extractLsb' 24 8 :: (instField inst ++ payload) := by
  simp [frameBody, headerBytes, le32]

/-- The registers before the last byte of the object id. -/
def headerRegs (c : Config) (k : Kind) (len : Half) (objid : ObjId) (rx : RxRegs) : RxRegs :=
  { rx with type := typeByte c k, len := len, fld := 3, objid := objidPart objid }

/-- Every frame in legal form is received up to the last byte of its object id (R152 to R155). -/
theorem rxTakeAll_headerBytes {s : State} (hwf : s.cfg.wf = true) (hs : s.rxState = .sync) (k : Kind) {len : Half}
    (hlen : lenInRange s.cfg len = true) (objid : ObjId) :
    rxTakeAll (headerBytes s.cfg k len objid) s
      = .next (receiving s (headerBytes s.cfg k len objid) .objid (headerRegs s.cfg k len objid s.rx) s.rxBuf) :=
  rxTakeAll_cons (rxTake_sync hs) (rxTakeAll_cons (rxTake_typeByte hwf k)
    (rxTakeAll_field (rxTakeAll_length (rx := { s.rx with type := typeByte s.cfg k }) hlen)
      (rxTakeAll_objidPart (rx := { s.rx with type := typeByte s.cfg k, len := len }) objid)))

/-- `t` is `s` after a frame of `n` bytes that was delivered as `e`, without an error. -/
def FrameDelivered (s : State) (n : Nat) (e : Event) (t : State) : Prop :=
  t.trace = s.trace ++ [e] ∧ t.rxState = .sync ∧ t.causes = s.causes ∧ t.stats = countedFrame s.cfg n s.stats
    ∧ sameOutsideDecoder s t

/-- A frame whose covered bytes have been received is delivered by its checksum (R160). -/
theorem rxTakeAll_checksum {s : State} {body payload : List Byte} {rx : RxRegs} {buf : Memory} {k : Kind}
    (hbody : rxTakeAll body s = .next (receiving s body .cs rx buf)) (hlt : body.length + 1 < 65536)
    (hlen : rx.len = BitVec.ofNat 16 body.length) (hk : kindOf s.cfg rx.type = some k)
    (hp : buf.readFrom 0 rx.paylen.toNat = some payload) :
    ∃ t, rxTakeAll (body ++ [crc8Block s.cfg.crcPoly s.cfg.crcInit body]) s = .next t
      ∧ FrameDelivered s (body.length + 1) (.deliver ⟨k, rx.objid, rx.found, rx.instid, rx.paylen, payload⟩) t := by
  refine ⟨_, rxTakeAll_field hbody (rxTakeAll_one (rxTake_checksum hlt hlen hk hp)), ?_⟩
  refine ⟨rfl, rfl, List.append_nil _, ?_, sameOutsideDecoder_apply _ (receiving s body .cs rx buf)⟩
  show Stats.mk (ctrAdd s.cfg (ctrAdd s.cfg s.stats.rxBytes body.length) 1) _ _ _ _ _ = _
  rw [ctrAdd_ctrAdd]; rfl

/-- The registers after the object id of a known object (R156). -/
def knownRegs (c : Config) (k : Kind) (len : Half) (e : ObjEntry) (objid : ObjId) (n : Nat) (rx : RxRegs) : RxRegs :=
  { rx with
    type := typeByte c k, len := len, objid := objid, found := true, single := e.single
    paylen := BitVec.ofNat 16 n, instid := 0, fld := 0 }

/-- The payload that the kind of an agreeing frame asks for is its payload (R99, R156). -/
theorem payLen_of_agreesWithModel {c : Config} {e : ObjEntry} {k : Kind} {inst : Option Half} {payload : List Byte}
    (h : agreesWithModel c e k inst payload) : payLen (some k) (some e) = payload.length := by
  obtain ⟨-, -, hn⟩ := h
  rw [payLen_some, hn]
  cases k <;> simp [carriesPayload]

/-- The last byte of the object id of an agreeing frame: the header passes (R156). -/
theorem rxTake_objid_known {s : State} {k : Kind} {objid : ObjId} {inst : Option Half} {payload : List Byte}
    {e : ObjEntry} (hwf : s.cfg.wf = true) (hl : objLookup s objid = some e)
    (ha : agreesWithModel s.cfg e k inst payload) {len : Half} (hlen : len.toNat = declaredLen inst payload)
    {rx : RxRegs} {buf : Memory} :
    rxTake (objid.extractLsb' 24 8)
        (receiving s (headerBytes s.cfg k len objid) .objid (headerRegs s.cfg k len objid rx) buf)
      = .next (receiving s (headerBytes s.cfg k len objid ++ [objid.extractLsb' 24 8])
          (afterObjId true e.single payload.length) (knownRegs s.cfg k len e objid payload.length rx) buf) := by
  have hkind := kindOf_typeByte hwf k
  have hpay := payLen_of_agreesWithModel ha
  obtain ⟨hinst, hmax, -⟩ := ha
  have hlookup : Decoder.lookup (objid.extractLsb' 24 8)
      (receiving s (headerBytes s.cfg k len objid) .objid (headerRegs s.cfg k len objid rx) buf).decoder = some e := by
    show s.env.objects.find? (fun x => x.id == putByte32 (objidPart objid) (objid.extractLsb' 24 8) 3) = some e
    rw [putByte32_objidPart]; exact hl
  have hsum : 8 + instLen true e.single + payload.length = len.toNat := by
    rw [hlen]
    cases inst with
    | none =>
      have hs : e.single = true := by simpa using hinst
      rw [hs, declaredLen_none]; rfl
    | some v =>
      have hs : e.single = false := by simpa using hinst
      rw [hs, declaredLen_some]; rfl
  have hfault : Decoder.fault (objid.extractLsb' 24 8)
      (receiving s (headerBytes s.cfg k len objid) .objid (headerRegs s.cfg k len objid rx) buf).decoder = none := by
    rw [Decoder.fault, hlookup]
    show headerFault s.cfg (kindOf s.cfg (typeByte s.cfg k)) (some e) 8 len = none
    rw [hkind, headerFault_known, hpay, if_pos hmax]
    exact if_pos hsum
  have htakes : Takes (objid.extractLsb' 24 8)
      (receiving s (headerBytes s.cfg k len objid) .objid (headerRegs s.cfg k len objid rx) buf).decoder
      (.ok ⟨afterObjId true e.single (payLen (kindOf s.cfg (typeByte s.cfg k)) (some e)),
        { headerRegs s.cfg k len objid rx with
          count := BitVec.ofNat 16 (headerBytes s.cfg k len objid).length + 1
          cs := crc8Byte s.cfg.crcPoly (crc8Block s.cfg.crcPoly s.cfg.crcInit (headerBytes s.cfg k len objid))
            (objid.extractLsb' 24 8)
          objid := putByte32 (objidPart objid) (objid.extractLsb' 24 8) 3
          found := true, single := e.single
          paylen := BitVec.ofNat 16 (payLen (kindOf s.cfg (typeByte s.cfg k)) (some e)), instid := 0, fld := 0 },
        buf, none, none⟩) :=
    .idKnown e rfl rfl hfault hlookup
  rw [putByte32_objidPart, hkind, hpay] at htakes
  exact rxTake_receiving htakes

/-- The fields behind the object id of a known object (R157 to R159): the instance id exactly for a multi-instance object,
then the payload. -/
theorem rxTakeAll_fields {s : State} {k : Kind} {objid : ObjId} {inst : Option Half} {payload : List Byte}
    {e : ObjEntry} (ha : agreesWithModel s.cfg e k inst payload) (hlt : payload.length < 65536) {len : Half}
    {pre : List Byte} {rx : RxRegs} {buf : Memory} :
    ∃ rx' buf', rxTakeAll (instField inst ++ payload)
          (receiving s pre (afterObjId true e.single payload.length) (knownRegs s.cfg k len e objid payload.length rx) buf)
        = .next (receiving s (pre ++ (instField inst ++ payload)) .cs rx' buf')
      ∧ buf'.readFrom 0 payload.length = some payload
      ∧ rx' = { knownRegs s.cfg k len e objid payload.length rx with
          instid := inst.getD 0, fld := BitVec.ofNat 16 payload.length } := by
  obtain ⟨hinst, hmax, -⟩ := ha
  have hpl : (BitVec.ofNat 16 payload.length).toNat = payload.length := by
    rw [BitVec.toNat_ofNat, Nat.mod_eq_of_lt hlt]
  cases inst with
  | none =>
    have hs : e.single = true := by simpa using hinst
    obtain ⟨buf', hrun, hread⟩ := rxTakeAll_payload (s := s) (pre := pre) (buf := buf)
      (rx := knownRegs s.cfg k len e objid payload.length rx) hmax hlt hpl
    refine ⟨_, buf', ?_, hread, rfl⟩
    have hst : afterObjId true e.single payload.length
        = if 0 < (BitVec.ofNat 16 payload.length).toNat then .data else .cs := by rw [hs, hpl]; rfl
    rw [hst]
    exact hrun
  | some v =>
    have hs : e.single = false := by simpa using hinst
    obtain ⟨buf', hrun, hread⟩ := rxTakeAll_payload (s := s) (pre := pre ++ le16 v) (buf := buf)
      (rx := { knownRegs s.cfg k len e objid payload.length rx with instid := v }) hmax hlt hpl
    refine ⟨_, buf', ?_, hread, rfl⟩
    have hst : afterObjId true e.single payload.length = .instid := by rw [hs]; rfl
    rw [hst, ← List.append_assoc]
    exact rxTakeAll_field (rxTakeAll_instid (rx := knownRegs s.cfg k len e objid payload.length rx) v) hrun

theorem minHeader_le_declaredLen (inst : Option Half) (payload : List Byte) : 8 ≤ declaredLen inst payload := by
  cases inst with
  | none => rw [declaredLen_none]; omega
  | some v => rw [declaredLen_some]; omega

/-- The covered bytes of an agreeing frame are received up to its checksum (R187). -/
theorem rxTakeAll_frameBody {s : State} {k : Kind} {objid : ObjId} {inst : Option Half} {payload : List Byte}
    {e : ObjEntry} (hwf : s.cfg.wf = true) (hs : s.rxState = .sync) (hl : objLookup s objid = some e)
    (ha : agreesWithModel s.cfg e k inst payload) :
    ∃ rx buf, rxTakeAll (frameBody s.cfg k objid inst payload) s
        = .next (receiving s (frameBody s.cfg k objid inst payload) .cs rx buf)
      ∧ buf.readFrom 0 payload.length = some payload
      ∧ rx = { knownRegs s.cfg k (BitVec.ofNat 16 (declaredLen inst payload)) e objid payload.length s.rx with
          instid := inst.getD 0, fld := BitVec.ofNat 16 payload.length } := by
  have hmax := maxPayload_le_of_wf hwf
  have hp : payload.length ≤ s.cfg.maxPayload := ha.2.1
  have hdecl := declaredLen_le (inst := inst) hp
  have hlen : (BitVec.ofNat 16 (declaredLen inst payload)).toNat = declaredLen inst payload := by
    rw [BitVec.toNat_ofNat, Nat.mod_eq_of_lt (by omega)]
  have hrange : lenInRange s.cfg (BitVec.ofNat 16 (declaredLen inst payload)) = true := by
    rw [lenInRange_iff, hlen]
    exact ⟨minHeader_le_declaredLen inst payload, hdecl⟩
  obtain ⟨rx, buf, hfields, hread, hrx⟩ := rxTakeAll_fields (objid := objid) (rx := s.rx) (buf := s.rxBuf)
    (pre := headerBytes s.cfg k (BitVec.ofNat 16 (declaredLen inst payload)) objid ++ [objid.extractLsb' 24 8])
    (len := BitVec.ofNat 16 (declaredLen inst payload)) ha (by omega)
  refine ⟨rx, buf, ?_, hread, hrx⟩
  rw [List.append_assoc] at hfields
  rw [frameBody_eq_headerBytes]
  exact rxTakeAll_field (rxTakeAll_headerBytes hwf hs k hrange objid)
    (rxTakeAll_cons (rxTake_objid_known hwf hl ha hlen) hfields)

/-- An agreeing frame is delivered once, whole (R187). -/
theorem rxTakeAll_frameBytes {s : State} {k : Kind} {objid : ObjId} {inst : Option Half} {payload : List Byte}
    {e : ObjEntry} (hwf : s.cfg.wf = true) (hs : s.rxState = .sync) (hl : objLookup s objid = some e)
    (ha : agreesWithModel s.cfg e k inst payload) :
    ∃ t, rxTakeAll (frameBytes s.cfg k objid inst payload) s = .next t
      ∧ FrameDelivered s (frameBytes s.cfg k objid inst payload).length (delivered k objid true inst payload) t := by
  have hlt := length_frameBytes_lt hwf ha.2.1 k objid inst
  have hbody := length_frameBody s.cfg k objid inst payload
  obtain ⟨rx, buf, hrun, hread, hrx⟩ := rxTakeAll_frameBody hwf hs hl ha
  rw [length_frameBytes] at hlt ⊢
  have hpl : rx.paylen.toNat = payload.length := by
    have hp : payload.length < 65536 := Nat.lt_of_le_of_lt (Nat.le_add_left _ _) (Nat.lt_of_succ_lt hlt)
    rw [hrx]; exact (BitVec.toNat_ofNat _ _).trans (Nat.mod_eq_of_lt hp)
  obtain ⟨t, ht, hdel⟩ := rxTakeAll_checksum hrun (by rw [hbody]; exact hlt) (by rw [hrx, hbody]; rfl)
    (show kindOf s.cfg rx.type = some k by rw [hrx]; exact kindOf_typeByte hwf k) (hpl ▸ hread)
  refine ⟨t, ht, ?_⟩
  rw [hbody, hrx] at hdel
  exact hdel

/-- The frame rows run `rx.frame` behind the guard (R115, log 12). -/
theorem exec_frameInstr {s : State} (hi : s.initialised = true) (k : Kind) (objid : ObjId) (inst : Option Half)
    (payload : List Byte) : exec (frameInstr k objid inst payload) s = rxFrame k objid inst payload s := by
  have h : exec (frameInstr k objid inst payload) s = whenInitialised s (rxFrame k objid inst payload) := by
    cases k <;> rfl
  rw [h, whenInitialised_of_true hi]

theorem rxFrame_of_fits {s : State} {payload : List Byte} (hp : payload.length ≤ s.cfg.maxPayload) (k : Kind)
    (objid : ObjId) (inst : Option Half) :
    rxFrame k objid inst payload s = rxTakeAll (frameBytes s.cfg k objid inst payload) (respond .done s) := by
  rw [rxFrame, emittedBytes_eq, if_pos hp]

/-- Settles O43: the chain of the frame's fields ends in the one delivery. -/
theorem agreeingFrameIsDeliveredOnce : Obligations.AgreeingFrameIsDeliveredOnce := by
  intro s k objid inst payload e hwf hi hs hl ha
  obtain ⟨t, ht, htrace, hst, hcauses, hstats, hsame⟩ :=
    rxTakeAll_frameBytes (s := respond .done s) hwf hs hl ha
  exact ⟨t, by rw [exec_frameInstr hi, rxFrame_of_fits ha.2.1]; exact ht, htrace, hst, hcauses, hstats, hsame⟩

end Sys2Proof.Machine
end

section
/-! Frames that the receiver's object model does not agree with, and frames of a reserved kind (R95, R187, R189). -/

namespace Sys2Proof.Machine

open Sys2Proof.Claims

/-- In format `F8` without payload the covered bytes end with the object id (R91). -/
theorem frameBody_none_nil (c : Config) (k : Kind) (objid : ObjId) :
    frameBody c k objid none [] = headerBytes c k 8 objid ++ [objid.extractLsb' 24 8] :=
  frameBody_eq_headerBytes c k objid none []

theorem lenInRange_eight (c : Config) : lenInRange c 8 = true :=
  lenInRange_iff.2 ⟨le_rfl, Nat.le_add_right_of_le (by decide)⟩

section
variable {s : State} {k : Kind} {objid : ObjId} {rx : RxRegs} {buf : Memory}

/-- At the last byte of its id an object that is not known is looked up in vain (R156). -/
theorem lookup_unknown (hl : objLookup s objid = none) :
    Decoder.lookup (objid.extractLsb' 24 8)
      (receiving s (headerBytes s.cfg k 8 objid) .objid (headerRegs s.cfg k 8 objid rx) buf).decoder = none := by
  show s.env.objects.find? (fun x => x.id == putByte32 (objidPart objid) (objid.extractLsb' 24 8) 3) = none
  rw [putByte32_objidPart]
  exact hl

/-- The outcome of the header's tests there depends on the kind alone. -/
theorem fault_unknown (hwf : s.cfg.wf = true) (hl : objLookup s objid = none) :
    Decoder.fault (objid.extractLsb' 24 8)
        (receiving s (headerBytes s.cfg k 8 objid) .objid (headerRegs s.cfg k 8 objid rx) buf).decoder
      = headerFault s.cfg (some k) none 8 8 := by
  rw [Decoder.fault, lookup_unknown hl, ← kindOf_typeByte hwf k]; rfl

end

/-- The covered bytes of a request about an unknown object: it passes the header's tests (R156, R157). -/
theorem rxTakeAll_unknownRequest {s : State} {objid : ObjId} (hwf : s.cfg.wf = true) (hs : s.rxState = .sync)
    (hl : objLookup s objid = none) :
    rxTakeAll (headerBytes s.cfg .objReq 8 objid ++ [objid.extractLsb' 24 8]) s
      = .next (receiving s (headerBytes s.cfg .objReq 8 objid ++ [objid.extractLsb' 24 8]) .cs
          { headerRegs s.cfg .objReq 8 objid s.rx with
            objid := objid, found := false, paylen := 0, instid := 0, fld := 0 } s.rxBuf) := by
  have hfault := fault_unknown (k := .objReq) (rx := s.rx) (buf := s.rxBuf) hwf hl
  rw [headerFault_request, if_pos rfl] at hfault
  have hlast : rxTake (objid.extractLsb' 24 8)
        (receiving s (headerBytes s.cfg .objReq 8 objid) .objid (headerRegs s.cfg .objReq 8 objid s.rx) s.rxBuf)
      = .next (receiving s (headerBytes s.cfg .objReq 8 objid ++ [objid.extractLsb' 24 8]) .cs
          { headerRegs s.cfg .objReq 8 objid s.rx with
            objid := putByte32 (objidPart objid) (objid.extractLsb' 24 8) 3
            found := false, paylen := 0, instid := 0, fld := 0 } s.rxBuf) :=
    rxTake_receiving (.idUnknown rfl rfl hfault (lookup_unknown hl))
  rw [putByte32_objidPart] at hlast
  exact rxTakeAll_field (rxTakeAll_headerBytes hwf hs .objReq (lenInRange_eight _) objid) (rxTakeAll_one hlast)

/-- Settles O44: a request about an unknown object passes the header's tests, and its checksum delivers it. -/
theorem unknownRequestIsDelivered : Obligations.UnknownRequestIsDelivered := by
  intro s objid hwf hi hs hl
  obtain ⟨t, ht, htrace, hst, hcauses, hstats, hsame⟩ :=
    rxTakeAll_checksum (payload := []) (rxTakeAll_unknownRequest (s := respond .done s) hwf hs hl)
      (by decide : 8 + 1 < 65536) rfl (kindOf_typeByte hwf .objReq) rfl
  refine ⟨t, ?_, htrace, hst, hcauses, hstats, hsame⟩
  have hexec : exec (.frameObjReq objid none []) s = rxFrame .objReq objid none [] s :=
    exec_frameInstr hi .objReq objid none []
  rw [hexec, rxFrame_of_fits (Nat.zero_le _), frameBytes_of_frameBody (frameBody_none_nil _ _ _)]
  exact ht

/-- A byte in `SYNC` is counted and touches nothing outside the decoder, whether it begins a frame or not (R152). -/
theorem rxTake_in_sync {s : State} (hs : s.rxState = .sync) (b : Byte) :
    ∃ st rx, rxTake b s
      = .next { s with response := .done, rxState := st, rx := rx, stats := s.stats.addRxByte s.cfg } := by
  rw [rxTake_of_sync hs]
  by_cases hb : b = s.cfg.syncVal
  · exact ⟨_, _, by rw [stateSync_of_eq (s := countedInSync s) hb]; rfl⟩
  · exact ⟨_, _, by rw [stateSync_of_ne (s := countedInSync s) hb]; rfl⟩

/-- The covered bytes of a frame about an unknown object that is no request: the first test fails at the last of them (R156). -/
theorem rxTakeAll_unknownObject {s : State} {k : Kind} {objid : ObjId} (hk : k ≠ .objReq) (hwf : s.cfg.wf = true)
    (hs : s.rxState = .sync) (hl : objLookup s objid = none) :
    ∃ rx, rxTakeAll (headerBytes s.cfg k 8 objid ++ [objid.extractLsb' 24 8]) s
      = .next (countedError .errUnknownObj { s with
          response := .done
          rxState := .objid
          rx := rx
          stats := { s.stats with rxBytes := ctrAdd s.cfg s.stats.rxBytes 8 } }) := by
  have hfault := fault_unknown (k := k) (rx := s.rx) (buf := s.rxBuf) hwf hl
  rw [headerFault_unknown (by simpa using hk)] at hfault
  have htakes : Takes (objid.extractLsb' 24 8)
      (receiving s (headerBytes s.cfg k 8 objid) .objid (headerRegs s.cfg k 8 objid s.rx) s.rxBuf).decoder _ :=
    .badHeader .errUnknownObj rfl rfl hfault
  have hlast := rxTake_of_takes htakes
  have hstats : ctrAdd s.cfg (ctrAdd s.cfg s.stats.rxBytes 7) 1 = ctrAdd s.cfg s.stats.rxBytes 8 := ctrAdd_ctrAdd _ _ _ _
  rw [outcomeOn, Effect.apply_countedError _ _ _ rfl] at hlast
  refine ⟨Decoder.latched (objid.extractLsb' 24 8)
    (receiving s (headerBytes s.cfg k 8 objid) .objid (headerRegs s.cfg k 8 objid s.rx) s.rxBuf).decoder, ?_⟩
  rw [← hstats]
  exact rxTakeAll_field (rxTakeAll_headerBytes hwf hs k (lenInRange_eight _) objid) (rxTakeAll_one hlast)

/-- Settles O45: the header's first test fails at the eighth byte, and the ninth meets the sequencer in `SYNC`. -/
theorem ackForUnknownObjectIsCounted : Obligations.AckForUnknownObjectIsCounted := by
  intro s k objid hk hwf hi hs hl
  have hreq : k ≠ .objReq := by rcases hk with rfl | rfl <;> decide
  obtain ⟨rx, hbody⟩ := rxTakeAll_unknownObject (s := respond .done s) hreq hwf hs hl
  obtain ⟨st, rx', hcs⟩ := rxTake_in_sync (s := countedError .errUnknownObj _) rfl
    (crc8Block s.cfg.crcPoly s.cfg.crcInit (headerBytes s.cfg k 8 objid ++ [objid.extractLsb' 24 8]))
  have hexec : exec (frameInstr k objid none []) s = _ :=
    (exec_frameInstr hi k objid none []).trans (rxFrame_of_fits (Nat.zero_le _) k objid none)
  rw [frameBytes_of_frameBody (frameBody_none_nil _ _ _)] at hexec
  refine ⟨_, hexec.trans (rxTakeAll_field hbody (rxTakeAll_one hcs)), rfl, rfl, ?_,
    ⟨rfl, rfl, rfl, rfl, rfl, rfl, rfl, rfl, rfl, rfl, rfl, rfl⟩⟩
  show Stats.mk (ctrAdd s.cfg (ctrAdd s.cfg s.stats.rxBytes 8) 1) _ _ _ _ _ = _
  rw [ctrAdd_ctrAdd]; rfl

/-- The two bytes of a frame with a reserved kind code (R95, log 13). -/
theorem rxKindCode_of_reserved {s : State} {code : Byte} (hwf : s.cfg.wf = true) (hs : s.rxState = .sync)
    (hmask : code &&& s.cfg.verMask = 0) (hres : ∀ k, codeOf s.cfg k ≠ code) :
    rxKindCode code s
      = .next { s with
          response := .done
          rx := { s.rx with
            count := 2
            cs := crc8Byte s.cfg.crcPoly (crc8Byte s.cfg.crcPoly s.cfg.crcInit s.cfg.syncVal) (s.cfg.verVal ||| code) }
          stats := { s.stats with rxBytes := ctrAdd s.cfg s.stats.rxBytes 2 }
          causes := s.causes ++ [.resyncKind] } := by
  obtain ⟨hver, hcode⟩ := typeByte_split (version_of_wf hwf) hmask
  have hkind : kindOf s.cfg (s.cfg.verVal ||| code) = none := kindOf_eq_none fun k => by rw [hcode]; exact hres k
  have htype : Takes (s.cfg.verVal ||| code) (receiving s [s.cfg.syncVal] .type s.rx s.rxBuf).decoder _ :=
    .badKind rfl (versionOk_iff.2 hver) hkind
  have htype' := rxTake_of_takes htype
  rw [outcomeOn, Effect.apply_resync _ _ _ rfl] at htype'
  have hstats : ctrAdd s.cfg (ctrAdd s.cfg s.stats.rxBytes 1) 1 = ctrAdd s.cfg s.stats.rxBytes 2 := ctrAdd_ctrAdd _ _ _ _
  refine (rxTakeAll_cons (rxTake_sync hs) (rxTakeAll_one htype')).trans ?_
  rw [← hstats]
  simp only [resync, hs]
  rfl

/-- Settles O46: one lemma, for each of the three codes. -/
theorem reservedKindIsLeftUncounted : Obligations.ReservedKindIsLeftUncounted := by
  intro s hwf hi hs left reserved
  have h : ∀ code, reserved code → whenInitialised s (rxKindCode code) = left code := fun code hres => by
    rw [whenInitialised_of_true hi]
    exact rxKindCode_of_reserved hwf hs hres.1 hres.2
  exact ⟨h 5, h 6, h 7⟩

end Sys2Proof.Machine
end

section
/-! Across the link (R187, R206): a run on `RX.BYTE` commands is the bytes taken one after another, as long as Object Dispatch
owes nothing before the last of them. -/

namespace Sys2Proof.Machine

open Sys2Proof.Claims

/-- A run goes on where its first part ended. -/
theorem run_add {m : Nat} {s t : State} (h : Host.Core.run Sys2Proof.core m s = .next t) (n : Nat) :
    Host.Core.run Sys2Proof.core (m + n) s = Host.Core.run Sys2Proof.core n t := by
  induction m generalizing s with
  | zero => cases h; rw [Nat.zero_add]
  | succ m ih =>
    rw [Nat.add_right_comm]
    simp only [Host.Core.run] at h ⊢
    split at h
    · next u hu => exact ih h
    · cases h
    · cases h

theorem run_one {s t : State} (h : step s = .next t) : Host.Core.run Sys2Proof.core 1 s = .next t := by
  simp only [Host.Core.run, Sys2Proof.core, h]

/-- The effect of a byte does not depend on the inputs behind it. -/
theorem rxTake_withInputs {b : Byte} {s t : State} (h : rxTake b s = .next t) (rest : List Input) :
    rxTake b { s with inputs := rest } = .next { t with inputs := rest } := by
  obtain ⟨o, ho, rfl⟩ := takes_of_rxTake h
  exact rxTake_of_takes (s := { s with inputs := rest }) ho

/-- An `RX.BYTE` command that need not wait takes its byte (R150). -/
theorem step_rxCommand {b : Byte} {s t : State} (hidle : ¬ dispatchBusy s) (hi : s.initialised = true)
    (h : rxTake b s = .next t) (rest : List Input) :
    step { s with inputs := rxCommands [b] ++ rest } = .next { t with inputs := rest } := by
  have hdec : decode (encode (.rxByte b)) = .ok (.rxByte b) := decodeOfEncodeIsTheInstruction (.rxByte b) rfl
  have hnext : takesNext { s with inputs := rxCommands [b] ++ rest } (.command (encode (.rxByte b))) rest :=
    ⟨[], rest, rfl, rfl, fun _ hj => (List.not_mem_nil hj).elim, fun hj => hidle hj.1⟩
  have hwhole : (Instr.rxByte b).op ∉ frameOps := by simp [Instr.op, frameOps]
  have hrun := runInstr_whole (s := { s with inputs := rest }) (i := .rxByte b) (.inr (.inr hwhole))
  rw [step_of_takesNext hnext, runInput, runCommand_of_decode hdec]
  exact hrun.trans ((exec_rxByte_of_initialised (s := { s with inputs := rest }) hi b).trans (rxTake_withInputs h rest))

/-- Bytes that emit no event are taken by a run of their commands: between two of them Object Dispatch owes nothing. -/
theorem run_rxCommands {bs : List Byte} {s t : State} (h : rxTakeAll bs s = .next t) (htrace : t.trace = s.trace)
    (hidle : ¬ dispatchBusy s) (hi : s.initialised = true) (rest : List Input) :
    Host.Core.run Sys2Proof.core bs.length { s with inputs := rxCommands bs ++ rest }
      = .next { t with inputs := rest } := by
  induction bs generalizing s with
  | nil => cases h; rfl
  | cons b bs ih =>
    obtain ⟨u, hb, hbs⟩ := andThen_eq_next h
    obtain ⟨o, -, rfl⟩ := takes_of_rxTake hb
    obtain ⟨-, -, -, -, hsu, -⟩ := blockOnly_apply o s
    obtain ⟨-, -, -, -, hut, -⟩ := blockOnly_rxTakeAll hbs
    have hu : (o.apply s).trace = s.trace :=
      (hsu.eq_of_length (Nat.le_antisymm hsu.length_le (htrace ▸ hut.length_le))).symm
    have hidle' : ¬ dispatchBusy (o.apply s) := by unfold dispatchBusy at hidle ⊢; rw [hu]; exact hidle
    rw [List.length_cons, Nat.add_comm]
    exact (run_add (run_one (step_rxCommand hidle hi hb (rxCommands bs ++ rest))) bs.length).trans
      (ih hbs (htrace.trans hu.symm) hidle' hi)

/-- Settles O48: the covered bytes of the frame emit no event, and its checksum byte delivers it. -/
theorem transmittedFrameCrossesTheLink : Obligations.TransmittedFrameCrossesTheLink := by
  intro s r k objid inst payload e hwf hi hm hcfg hri hrs hidle hl ha
  have hflat := flatten_chunksOf (bs := frameBytes s.cfg k objid inst payload) (toNat_mtu_ne_zero hm) le_rfl
  refine ⟨transmitted (frameBytes s.cfg k objid inst payload) s,
    chunksOf (frameBytes s.cfg k objid inst payload).length s.mtu.toNat (frameBytes s.cfg k objid inst payload), ?_⟩
  rw [hflat, ← hcfg]
  rw [← hcfg] at hwf ha
  obtain ⟨t, ht, htrace, hst, hcauses, hstats, -⟩ := rxTakeAll_frameBytes hwf hrs hl ha
  obtain ⟨rx, buf, hbody, -, -⟩ := rxTakeAll_frameBody hwf hrs hl ha
  rw [frameBytes, rxTakeAll_append, hbody, andThen_next] at ht
  obtain ⟨u, hcs, hu⟩ := andThen_eq_next ht
  cases hu
  have hrun := run_rxCommands hbody rfl hidle hri
    (rxCommands [crc8Block r.cfg.crcPoly r.cfg.crcInit (frameBody r.cfg k objid inst payload)])
  have hlast := step_rxCommand (s := receiving r (frameBody r.cfg k objid inst payload) .cs rx buf) hidle hri hcs []
  refine ⟨{ t with inputs := [] }, ?_, rfl, rfl, ?_, htrace, hst, ?_, rfl⟩
  · rw [hcfg, exec_txInstr, whenInitialised_of_true hi, transmit_accept (hcfg ▸ ha.2.1) hm]
  · have hcmds : rxCommands (frameBytes r.cfg k objid inst payload)
        = rxCommands (frameBody r.cfg k objid inst payload)
          ++ rxCommands [crc8Block r.cfg.crcPoly r.cfg.crcInit (frameBody r.cfg k objid inst payload)] :=
      List.map_append
    rw [hcmds, length_frameBytes, ← length_frameBody r.cfg k objid inst payload]
    exact (run_add hrun 1).trans (run_one hlast)
  · show t.stats.rxErrors = _
    rw [hstats]; rfl

end Sys2Proof.Machine
end

section
/-! The host's moves one by one (`spec/44_host_contract.md`): what Object Dispatch does with the event it can take, and what
the last of the host's tasks packs and issues. -/

namespace Sys2Proof.Machine

open Sys2Proof.Claims

/-! Object Dispatch takes an event (R254), and what that does to the transaction slot (R255, R259, R264). -/

/-- The state with the next event consumed. -/
def consume (s : State) : State := { s with env := consumed s }

theorem nextDeliver_of_canDispatch {s : State} {d : Deliver} (h : canDispatch s d) : nextDeliver s = some d := by
  obtain ⟨ha, hd, -⟩ := h
  simp only [nextDeliver, ha, if_true, hd]

theorem hostMove_dispatch {s : State} {d : Deliver} (h : canDispatch s d) (draw : Draw) :
    hostMove (.dispatch draw) s = .next (dispatchDeliver d draw (consume s)) := by
  have hr : replying s = false := (replying_eq_false_iff s).2 h.2.2
  exact congrArg _ (dispatchNext_of_deliver hr (nextDeliver_of_canDispatch h) draw)

theorem satisfies_iff (c : Config) (a : Awaited) (d : Deliver) :
    satisfies c a d.objid d.instid = true ↔ awaits c a d := by
  simp [satisfies, awaits]

theorem resolves_ack_iff {c : Config} {a : Awaited} {d : Deliver} (h : d.kind = .ack) :
    resolves c a d = true ↔ awaits c a d := by
  simp only [resolves, h, satisfies_iff]

/-- An update resolves what awaits it, if it is not one with the wildcard instance id (R255). -/
theorem resolves_update_iff {c : Config} {a : Awaited} {d : Deliver} (h : d.kind = .obj ∨ d.kind = .objAck)
    (hne : d.instid ≠ c.allInstances) : resolves c a d = true ↔ awaits c a d := by
  have hne' : (d.instid != c.allInstances) = true := bne_iff_ne.2 hne
  rcases h with h | h <;> simp only [resolves, h, hne', Bool.true_and, satisfies_iff]

/-- No frame resolves what does not await it. -/
theorem resolves_eq_false {c : Config} {a : Awaited} {d : Deliver} (h : ¬ awaits c a d) : resolves c a d = false := by
  have hsat : satisfies c a d.objid d.instid = false := Bool.eq_false_iff.2 (mt (satisfies_iff c a d).1 h)
  unfold resolves
  cases d.kind <;> simp [hsat]

/-- A task ends when nothing of it is left. -/
theorem setTask_of_done {t : Task} (h : t.isDone = true) (k : Nat) (s : State) :
    setTask k t s = { s with env := { s.env with tasks := s.env.tasks.eraseIdx k } } := by
  simp only [setTask, h, if_true]

theorem setTask_of_not_done {t : Task} (h : t.isDone = false) (k : Nat) (s : State) :
    setTask k t s = { s with env := { s.env with tasks := s.env.tasks.set k t } } := by
  simp only [setTask, h]; rfl

theorem addTask_of_not_done {t : Task} (h : t.isDone = false) (s : State) :
    addTask t s = { s with env := { s.env with tasks := s.env.tasks ++ [t] } } := by
  simp only [addTask, h]; rfl

/-- The state with other tasks in progress. -/
def withTasks (tasks : List Task) (s : State) : State := { s with env := { s.env with tasks := tasks } }

theorem withTasks_self (s : State) : withTasks s.env.tasks s = s := rfl

/-! The last of the tasks: it has been added last, and others before it may be in progress. -/

/-- The operation a task forms for an instance it has packed (R257, R261). -/
def formedOp (role : TaskRole) (objid : ObjId) (i : Half) (value : List Byte) (s : State) : TxOp where
  kind := role.kind
  objid := objid
  about := i
  inst := instOperand s objid i
  payload := value

/-- A task that has packed its only instance. -/
def formedTask (role : TaskRole) (objid : ObjId) (instid i : Half) (value : List Byte) (s : State) : Task :=
  { packTask role objid instid [] with ready := some (formedOp role objid i value s) }

section
variable (s : State) (l : List Task)

/-- What is left of the tasks when the last one has ended. -/
theorem setTask_last_done {t t' : Task} (h : t'.isDone = true) :
    setTask l.length t' (withTasks (l ++ [t]) s) = withTasks l s := by
  rw [setTask_of_done h]
  simp only [withTasks, eraseIdx_append_length]

/-- The last task packs its only instance. -/
theorem packNext_last {role : TaskRole} {objid : ObjId} {instid i : Half} {draw : Draw} {value : List Byte}
    (hp : pack s draw objid i = some value) :
    packNext l.length draw (withTasks (l ++ [packTask role objid instid [i]]) s)
      = withTasks (l ++ [formedTask role objid instid i value s]) s := by
  refine (packNext_of_pack (getElem?_append_length l _) rfl rfl hp).trans ?_
  rw [setTask_of_not_done rfl]
  simp only [withTasks, List.set_append_right _ _ le_rfl, Nat.sub_self]
  rfl

variable {t : Task} {op : TxOp}

/-- The last task issues the operation it has ready, whose payload fits (R200). -/
theorem hostMove_issue_last (hr : t.ready = some op) (hi : s.initialised = true) (hm : s.mtu ≠ 0)
    (hp : op.payload.length ≤ s.cfg.maxPayload) :
    hostMove (.issue l.length) (withTasks (l ++ [t]) s)
      = .next (issued l.length { t with ready := none } op
          (withTasks (l ++ [t]) (transmitted (frameBytes s.cfg op.kind op.objid op.inst op.payload) s))) := by
  refine (issueNext_of_ready (getElem?_append_length l t) hr).trans ?_
  rw [issueOp_eq (s := withTasks (l ++ [t]) s) hi, transmit_accept (s := withTasks (l ++ [t]) s) hp hm]
  rfl

/-- After the one operation of a reply nothing is left of it. -/
theorem hostMove_issue_reply (hrole : t.role = .reply) (htodo : t.todo = []) (hr : t.ready = some op)
    (hi : s.initialised = true) (hm : s.mtu ≠ 0) (hp : op.payload.length ≤ s.cfg.maxPayload) :
    hostMove (.issue l.length) (withTasks (l ++ [t]) s)
      = .next (withTasks l (transmitted (frameBytes s.cfg op.kind op.objid op.inst op.payload) s)) := by
  rw [hostMove_issue_last s l hr hi hm hp]
  simp only [issued, hrole]
  rw [setTask_last_done _ _ (by simp [Task.isDone, htodo])]

/-- After the one operation of a plain send success is reported (R263). -/
theorem hostMove_issue_send (hrole : t.role = .send) (htodo : t.todo = []) (hr : t.ready = some op)
    (hi : s.initialised = true) (hm : s.mtu ≠ 0) (hp : op.payload.length ≤ s.cfg.maxPayload) :
    hostMove (.issue l.length) (withTasks (l ++ [t]) s)
      = .next (report (.sent op.objid op.about)
          (withTasks l (transmitted (frameBytes s.cfg op.kind op.objid op.inst op.payload) s))) := by
  rw [hostMove_issue_last s l hr hi hm hp]
  simp only [issued, hrole]
  rw [setTask_last_done _ _ (by simp [Task.isDone, htodo])]
  rfl

/-- After the operation of a request its caller waits (R264). -/
theorem hostMove_issue_request (hrole : t.role = .request) (htodo : t.todo = []) (hr : t.ready = some op)
    (hi : s.initialised = true) (hm : s.mtu ≠ 0) (hp : op.payload.length ≤ s.cfg.maxPayload) :
    hostMove (.issue l.length) (withTasks (l ++ [t]) s)
      = .next (withTasks l (transmitted (frameBytes s.cfg op.kind op.objid op.inst op.payload) s)) := by
  rw [hostMove_issue_last s l hr hi hm hp]
  simp only [issued, hrole, txnIssued]
  exact congrArg _ (setTask_last_done _ _ (by simp [Task.isDone, htodo]))

end

/-- The chunks of a transmission join to its frame (R206). -/
theorem flatten_chunks {s : State} (hm : s.mtu ≠ 0) (frame : List Byte) :
    (chunksOf frame.length s.mtu.toNat frame).flatten = frame :=
  flatten_chunksOf (toNat_mtu_ne_zero hm) le_rfl

/-- The instance-id operand about an object the host knows (R98, R261). -/
theorem instOperand_known {s : State} {objid : ObjId} {e : ObjEntry} (h : objLookup s objid = some e) (instid : Half) :
    instOperand s objid instid = if e.single then none else some instid := by
  simp only [instOperand, h]

theorem instOperand_unknown {s : State} {objid : ObjId} (h : objLookup s objid = none) (instid : Half) :
    instOperand s objid instid = none := by
  simp only [instOperand, h]

theorem targetInstances_one {s : State} {instid : Half} (h : instid ≠ s.cfg.allInstances) (objid : ObjId) :
    targetInstances s objid instid = [instid] :=
  if_neg h

theorem playMoves_cons {m : Move} {ms : List Move} {s t : State} {r : Result} (h : hostMove m s = .next t)
    (hr : playMoves ms t = r) : playMoves (m :: ms) s = r := by
  rw [playMoves, h, andThen_next, hr]

theorem playMoves_one {m : Move} {s t : State} (h : hostMove m s = .next t) : playMoves [m] s = .next t :=
  playMoves_cons h rfl

/-- The last task packs its only instance, and the moves after it go on. -/
theorem playMoves_pack (s : State) (l : List Task) {role : TaskRole} {objid : ObjId} {instid i : Half} {draw : Draw}
    {value : List Byte} {ms : List Move} {r : Result} (hp : pack s draw objid i = some value)
    (hr : playMoves ms (withTasks (l ++ [formedTask role objid instid i value s]) s) = r) :
    playMoves (.pack l.length draw :: ms) (withTasks (l ++ [packTask role objid instid [i]]) s) = r :=
  playMoves_cons (congrArg Host.Outcome.next (packNext_last s l hp)) hr

/-! Updates (R255, R256). -/

/-- Settles O53: the wildcard is the first branch of both kinds of update. -/
theorem wildcardUpdateIsRejected : Obligations.WildcardUpdateIsRejected := by
  intro s d draw h hk hall
  rw [hostMove_dispatch h]
  rcases hk with hk | hk
  · simp only [dispatchDeliver, hk]
    exact congrArg _ (if_pos hall)
  · simp only [dispatchDeliver, hk]
    exact congrArg _ (if_pos hall)

/-- The transaction slot after a frame seen: what the frame resolves has its completion signal (R255, R259). -/
def slotAfter (d : Deliver) (s : State) : Option Slot :=
  s.env.slot.map fun p => if resolves s.cfg p.awaited d then { p with signal := true } else p

theorem resolveTxn_eq_setSlot (d : Deliver) (s : State) : resolveTxn d s = setSlot (slotAfter d s) s := by
  unfold resolveTxn slotAfter
  split
  · next hp => rw [hp, Option.map_none, ← hp]; rfl
  · next p hp =>
    rw [hp, Option.map_some]
    split
    · rfl
    · rw [← hp]; rfl

theorem slotAfter_of_resolves {d : Deliver} {s : State} {p : Slot} (hp : s.env.slot = some p)
    (h : resolves s.cfg p.awaited d = true) : slotAfter d s = some { p with signal := true } := by
  simp only [slotAfter, hp, Option.map_some, h, if_true]

theorem slotAfter_of_not_awaits {d : Deliver} {s : State} (h : ∀ p, s.env.slot = some p → ¬ awaits s.cfg p.awaited d) :
    slotAfter d s = s.env.slot := by
  cases hp : s.env.slot with
  | none => simp only [slotAfter, hp, Option.map_none]
  | some p => simp [slotAfter, hp, resolves_eq_false (h p hp)]

/-- The store after an update: its value is stored, if there is one (R255). -/
def storeAfter (d : Deliver) (value : Option (List Byte)) (store : List StoredObject) : List StoredObject :=
  match value with
  | none => store
  | some v => writeStore store d.objid d.instid v

/-- The ack that is then to be sent, of an update that asks for one and could be unpacked (R256). -/
def ackTasks (d : Deliver) (draw : Draw) (s : State) : List Task :=
  if d.kind = .objAck ∧ draw.isSome then
    [opTask .reply .ack d.objid d.instid (instOperand s d.objid d.instid)]
  else []

/-- The state after an update for one instance has been taken. -/
def updated (d : Deliver) (draw : Draw) (s : State) : State :=
  { s with env := { consumed s with
      slot := slotAfter d s
      store := storeAfter d (unpackedValue s draw d.objid d.payload) s.env.store
      tasks := s.env.tasks ++ ackTasks d draw s } }

/-- An update gives the signal it resolves, and stores its value if there is one (R255). -/
theorem takeUpdate_eq (d : Deliver) (value : Option (List Byte)) (s : State) :
    takeUpdate d value s
      = { s with env := { s.env with slot := slotAfter d s, store := storeAfter d value s.env.store } } := by
  cases value with
  | none => exact resolveTxn_eq_setSlot d s
  | some v => exact resolveTxn_eq_setSlot d (unpack d.objid d.instid v s)

theorem hostMove_dispatch_update {s : State} {d : Deliver} {draw : Draw} (h : canDispatch s d)
    (hk : d.kind = .obj ∨ d.kind = .objAck) (hne : d.instid ≠ s.cfg.allInstances) :
    hostMove (.dispatch draw) s = .next (updated d draw s) := by
  rw [hostMove_dispatch h]
  have hsome : (unpackedValue (consume s) draw d.objid d.payload).isSome = draw.isSome := isSome_unpackedValue ..
  rcases hk with hk | hk
  · simp only [dispatchDeliver, hk, updated, ackTasks]
    refine congrArg _ ((if_neg hne).trans ?_)
    rw [takeUpdate_eq, if_neg (by simp), List.append_nil]
    rfl
  · simp only [dispatchDeliver, hk, updated, ackTasks]
    refine congrArg _ ((if_neg hne).trans ?_)
    simp only [hsome, takeUpdate_eq, true_and]
    cases draw with
    | none => simp only [Option.isSome_none, Bool.false_eq_true, if_false, List.append_nil]; rfl
    | some bytes => rfl

/-- The ack of an update, issued by its own move: it is the last of the tasks (R256). -/
theorem hostMove_issue_ack {s : State} {d : Deliver} {draw : Draw} (hk : d.kind = .objAck) (hdraw : draw ≠ none)
    (hi : s.initialised = true) (hm : s.mtu ≠ 0) :
    hostMove (.issue s.env.tasks.length) (updated d draw s)
      = .next (withTasks s.env.tasks
          (transmitted (frameBytes s.cfg .ack d.objid (instOperand s d.objid d.instid) []) (updated d draw s))) := by
  have htasks : (updated d draw s).env.tasks
      = s.env.tasks ++ [opTask .reply .ack d.objid d.instid (instOperand s d.objid d.instid)] := by
    simp only [updated, ackTasks, if_pos (And.intro hk (Option.isSome_iff_ne_none.2 hdraw))]
  have hissue := hostMove_issue_reply (updated d draw s) s.env.tasks
    (t := opTask .reply .ack d.objid d.instid (instOperand s d.objid d.instid)) rfl rfl rfl hi hm (Nat.zero_le _)
  rw [← htasks, withTasks_self] at hissue
  exact hissue

/-- Settles O54: what an update does is said once, by `updated`; the ack is the task it adds. -/
theorem storedUpdateIsAcknowledged : Obligations.StoredUpdateIsAcknowledged := by
  intro s d draw h hk hne
  refine ⟨updated d draw s, hostMove_dispatch_update h hk hne, rfl,
    fun p hp ha => slotAfter_of_resolves hp ((resolves_update_iff hk hne).2 ha), slotAfter_of_not_awaits, ?_, ?_⟩
  · rintro rfl
    exact ⟨rfl, by simp [updated, ackTasks]⟩
  · intro e he hdraw
    obtain ⟨bytes, rfl⟩ := Option.ne_none_iff_exists'.1 hdraw
    obtain ⟨v, hv, hlen, hsame⟩ := unpackedValue_some he bytes d.payload
    have hstore : (updated d (some bytes) s).env.store = writeStore s.env.store d.objid d.instid v := by
      simp only [updated, hv, storeAfter]
    have hvalue : ∀ o i,
        instanceValue (updated d (some bytes) s) o i = instanceValue (unpack d.objid d.instid v s) o i := fun o i => by
      simp only [instanceValue, hstore, unpack]
    refine ⟨⟨v, ?_, hlen, hsame⟩, fun o i hoi => ?_, fun hobj => ?_, fun hack hi hm => ?_⟩
    · rw [hvalue, instanceValue_unpack_self]
    · rw [hvalue, instanceValue_unpack_of_ne v s fun ⟨ho, hi⟩ => hoi (by rw [ho, hi])]
    · simp [updated, ackTasks, hobj]
    · refine ⟨_, _, hostMove_issue_ack hack hdraw hi hm, rfl, ?_, rfl⟩
      rw [← instOperand_known he]
      exact flatten_chunks (s := updated d (some bytes) s) hm _

/-! Requests (R257): with the request taken its reply is the last of the tasks. -/

theorem hostMove_dispatch_request {s : State} {d : Deliver} (h : canDispatch s d) (hk : d.kind = .objReq) (draw : Draw) :
    hostMove (.dispatch draw) s = .next (dispatchObjReq d (consume s)) := by
  rw [hostMove_dispatch h]
  simp only [dispatchDeliver, hk]

/-- A request about an unknown object gets a nack for a reply. -/
theorem dispatchObjReq_unknown {d : Deliver} (hf : d.found = false) (s : State) :
    dispatchObjReq d s = withTasks (s.env.tasks ++ [opTask .reply .nack d.objid d.instid none]) s := by
  rw [dispatchObjReq, hf, if_neg Bool.false_ne_true, addTask_of_not_done rfl]
  rfl

/-- A request for one instance gets that instance for a reply. -/
theorem dispatchObjReq_one {d : Deliver} {s : State} (hf : d.found = true) (hne : d.instid ≠ s.cfg.allInstances) :
    dispatchObjReq d s = withTasks (s.env.tasks ++ [packTask .reply d.objid d.instid [d.instid]]) s := by
  rw [dispatchObjReq, if_pos hf, targetInstances_one hne, addTask_of_not_done rfl]
  rfl

/-- A request with the wildcard gets every live instance for a reply. -/
theorem dispatchObjReq_wildcard {d : Deliver} {s : State} (hf : d.found = true) (hall : d.instid = s.cfg.allInstances) :
    dispatchObjReq d s
      = withTasks
          (if liveInstances s d.objid = [] then s.env.tasks
            else s.env.tasks ++ [packTask .reply d.objid d.instid (liveInstances s d.objid)]) s := by
  rw [dispatchObjReq, if_pos hf, targetInstances, if_pos hall]
  simp [addTask, withTasks, Task.isDone, packTask]

/-- Settles O55: the reply is the last of the tasks, and `pack` and `issue` work on it. -/
theorem requestsAreAnswered : Obligations.RequestsAreAnswered := by
  intro s d draw h hk hi hm
  have hdispatch := hostMove_dispatch_request h hk draw
  refine ⟨fun hf => ?_, fun hf hne => ⟨fun e bytes he hmax => ?_, ?_⟩, fun hf hall => ?_⟩
  · rw [dispatchObjReq_unknown hf] at hdispatch
    have hissue := hostMove_issue_reply (consume s) s.env.tasks (t := opTask .reply .nack d.objid d.instid none)
      rfl rfl rfl hi hm (Nat.zero_le _)
    exact ⟨_, _, playMoves_cons hdispatch (playMoves_one hissue), rfl, flatten_chunks hm _, rfl⟩
  · rw [dispatchObjReq_one (s := consume s) hf hne] at hdispatch
    obtain ⟨value, hpack, hlen, hcur, hfree⟩ := pack_some he bytes d.instid
    have hissue := hostMove_issue_reply (consume s) s.env.tasks
      (t := formedTask .reply d.objid d.instid d.instid value (consume s)) rfl rfl rfl hi hm (hlen ▸ hmax)
    have hplay := playMoves_cons hdispatch
      (playMoves_pack (draw := some bytes) (consume s) s.env.tasks hpack (playMoves_one hissue))
    refine ⟨_, _, value, hplay, hlen, hcur, hfree, rfl, ?_, rfl⟩
    rw [← instOperand_known he]
    exact flatten_chunks hm _
  · rw [dispatchObjReq_one (s := consume s) hf hne] at hdispatch
    refine playMoves_cons hdispatch (playMoves_one (congrArg Host.Outcome.next ?_))
    refine (packNext_of_fail (getElem?_append_length s.env.tasks _) rfl rfl (pack_none ..)).trans ?_
    exact setTask_last_done (consume s) s.env.tasks rfl
  · refine ⟨liveInstances s d.objid, (pairwise_liveInstances s d.objid).imp BitVec.lt_def.1, fun i => ?_, ?_⟩
    · rw [mem_liveInstances, Option.ne_none_iff_exists']
    · rw [hdispatch, dispatchObjReq_wildcard (s := consume s) hf hall]
      rfl

/-! Acks and nacks (R258, R259), and the caller that waits (R264, R266). -/

theorem hostMove_dispatch_ack {s : State} {d : Deliver} (h : canDispatch s d) (hk : d.kind = .ack) (draw : Draw) :
    hostMove (.dispatch draw) s = .next (setSlot (slotAfter d s) (consume s)) := by
  rw [hostMove_dispatch h]
  simp only [dispatchDeliver, hk, dispatchAck, resolveTxn_eq_setSlot]
  rfl

theorem callerWaits_iff (s : State) : callerWaits s = true ↔ txnSent s := by
  simp only [callerWaits, txnSent, List.all_eq_true, Bool.not_eq_true', Task.isTxn_eq_false_iff]
  exact forall₂_congr fun t _ => by cases t.role <;> decide

/-- The transaction of a caller that waits ends with its report: none of the tasks is its own (R264). -/
theorem endTxn_of_txnSent {s : State} (h : txnSent s) (r : Report) :
    endTxn r s = { s with env := { s.env with slot := none, reports := s.env.reports ++ [r] } } := by
  have htasks : s.env.tasks.filter (fun t => !t.isTxn) = s.env.tasks :=
    List.filter_eq_self.2 (List.all_eq_true.1 ((callerWaits_iff s).2 h))
  simp only [endTxn, report, Env.freeSlot, htasks]

/-- Settles O56: the completion signal, and then the caller that wakes. -/
theorem ackResolvesTheMatchingTransaction : Obligations.AckResolvesTheMatchingTransaction := by
  intro s d draw h
  refine ⟨fun hk p hp ha => ?_, fun hk hno => ?_, fun hk => ?_⟩
  · have hrun : hostMove (.dispatch draw) s = .next (setSlot (some { p with signal := true }) (consume s)) := by
      rw [hostMove_dispatch_ack h hk, slotAfter_of_resolves hp ((resolves_ack_iff hk).2 ha)]
    refine ⟨hrun, fun hsent => playMoves_cons hrun (playMoves_one (congrArg Host.Outcome.next ?_))⟩
    have hwaits : callerWaits (setSlot (some { p with signal := true }) (consume s)) = true := (callerWaits_iff _).2 hsent
    show (if true && callerWaits _ then _ else _) = _
    rw [hwaits, Bool.and_self, if_pos rfl]
    exact endTxn_of_txnSent (s := setSlot _ (consume s)) hsent _
  · rw [hostMove_dispatch_ack h hk, slotAfter_of_not_awaits hno]
    rfl
  · rw [hostMove_dispatch h]
    simp only [dispatchDeliver, hk]
    rfl

/-- Settles O58: while the slot is taken both moves go by it. -/
theorem secondTransactionBlocks : Obligations.SecondTransactionBlocks := by
  intro s p r k hp
  constructor
  · simp only [hostMove, startTxn, hp]
  · simp only [hostMove, resumeTxn, hp]

/-- Whether the timeout of the pending transaction passes (R266, U16). -/
theorem hostMove_timeout {s : State} {p : Slot} (hp : s.env.slot = some p) (h : txnSent s) :
    hostMove .timeout s
      = .next (if p.signal || (nextDeliver s).any (resolves s.cfg p.awaited) then s
          else { s with env := { s.env with slot := none, reports := s.env.reports ++ [.timedOut p.awaited] } }) := by
  simp only [hostMove, timeoutTxn, hp, (callerWaits_iff s).2 h, Bool.not_true, Bool.or_false, endTxn_of_txnSent h]

/-- Settles O59: what passes a timeout is the signal given or a resolving frame to come. -/
theorem timeoutFreesTheSlot : Obligations.TimeoutFreesTheSlot := by
  intro s p hp hsent
  rw [hostMove_timeout hp hsent]
  refine ⟨fun hsig hno => ?_, fun hsig => ?_, fun d hd hk ha => ?_⟩
  · have hnone : (nextDeliver s).any (resolves s.cfg p.awaited) = false := by
      cases hd : nextDeliver s with
      | none => rfl
      | some d => exact resolves_eq_false (hno d hd)
    simp [hsig, hnone]
  · simp [hsig]
  · simp [hd, (resolves_ack_iff hk).2 ha]

/-! Sends and requests (R261 to R264). -/

/-- Settles O57: the send is the last of the tasks, and `pack` and `issue` work on it. -/
theorem plainSendTransmitsOneUpdate : Obligations.PlainSendTransmitsOneUpdate := by
  intro s objid instid e bytes he hmax hne hi hm
  have hsend : hostMove (.send objid instid) s
      = .next (withTasks (s.env.tasks ++ [packTask .send objid instid [instid]]) s) := by
    simp only [hostMove, sendObject, targetInstances_one hne]
    rfl
  obtain ⟨value, hpack, hlen, hcur, hfree⟩ := pack_some he bytes instid
  have hissue := hostMove_issue_send s s.env.tasks (t := formedTask .send objid instid instid value s)
    rfl rfl rfl hi hm (hlen ▸ hmax)
  have hplay := playMoves_cons hsend (playMoves_pack (draw := some bytes) s s.env.tasks hpack (playMoves_one hissue))
  refine ⟨_, _, value, hplay, hlen, hcur, hfree, rfl, ?_, rfl⟩
  rw [← instOperand_known he]
  exact flatten_chunks hm _

/-- Settles O60: the request is the last of the tasks, with the slot taken before it is issued. -/
theorem requestTakesTheSlotAndSends : Obligations.RequestTakesTheSlotAndSends := by
  intro s objid instid hslot hi hm
  have hstart : hostMove (.startTxn ⟨.request, objid, instid⟩) s
      = .next (withTasks (s.env.tasks ++ [opTask .request .objReq objid instid (instOperand s objid instid)])
          (setSlot (some ⟨⟨objid, instid⟩, false⟩) s)) := by
    simp only [hostMove, startTxn, hslot]
    rfl
  have hissue := hostMove_issue_request (setSlot (some ⟨⟨objid, instid⟩, false⟩) s) s.env.tasks
    (t := opTask .request .objReq objid instid (instOperand s objid instid)) rfl rfl rfl hi hm (Nat.zero_le _)
  exact ⟨_, _, _, instOperand s objid instid, hstart, rfl, rfl, hissue, rfl, flatten_chunks hm _,
    fun e he => instOperand_known he instid, fun he => instOperand_unknown he instid, rfl⟩

end Sys2Proof.Machine
end

section
/-! The host around the block (R254, R264, R265): what every step keeps of it. A step of the block or of the host either
keeps the tasks, but for those that end, and the events still to be consumed, or does one of four things: a task is added, an
event is consumed, Object Dispatch is connected, or a byte is received. -/

namespace Sys2Proof.Machine

open Sys2Proof.Claims

/-! The events still to be consumed. -/

theorem deliveries_append (l l' : List Event) : deliveries (l ++ l') = deliveries l ++ deliveries l' :=
  List.filterMap_append

theorem deliveries_sinks (chunks : List (List Byte)) : deliveries (chunks.map Event.sink) = [] := by
  simp [deliveries]

theorem deliveries_deliver (e : Option Deliver) : deliveries (e.map Event.deliver).toList = e.toList := by
  cases e <;> rfl

/-- Every `Deliver` event has been consumed, if Object Dispatch is connected. -/
def allConsumed (s : State) : Prop := s.env.attached = true → (deliveries s.trace).length = s.env.dispatched

/-! What a task is for is its role. -/

/-- Whether a task with that role transmits for a transaction (R264). -/
def TaskRole.isTxn (r : TaskRole) : Bool := r == .ackedSend || r == .request

theorem Task.isTxn_eq (t : Task) : t.isTxn = t.role.isTxn := by
  unfold Task.isTxn
  cases t.role <;> rfl

theorem Task.isReply_eq (t : Task) : t.isReply = (t.role == .reply) := by
  unfold Task.isReply
  cases t.role <;> rfl

/-- The roles of the tasks in progress. -/
def roles (s : State) : List TaskRole := s.env.tasks.map Task.role

theorem length_filter_isTxn (s : State) : (s.env.tasks.filter Task.isTxn).length = (roles s).countP TaskRole.isTxn := by
  rw [← List.countP_eq_length_filter, roles, List.countP_map]
  exact List.countP_congr fun t _ => by rw [Task.isTxn_eq]; rfl

theorem length_filter_isReply (s : State) : (s.env.tasks.filter Task.isReply).length = (roles s).count .reply := by
  rw [← List.countP_eq_length_filter, roles, List.count, List.countP_map]
  exact List.countP_congr fun t _ => by rw [Task.isReply_eq]; rfl

theorem forall_isTxn_eq_false (s : State) :
    (∀ t ∈ s.env.tasks, t.isTxn = false) ↔ (roles s).countP TaskRole.isTxn = 0 := by
  simp [List.countP_eq_zero, roles, Task.isTxn_eq]

theorem replying_eq_false_iff_count (s : State) : replying s = false ↔ (roles s).count .reply = 0 := by
  simp [replying_eq_false_iff, List.count_eq_zero, roles]

/-- The invariant in terms of the roles of the tasks. -/
theorem hostSound_iff (s : State) :
    HostSound s ↔
      (roles s).countP TaskRole.isTxn ≤ 1 ∧ (s.env.slot = none → (roles s).countP TaskRole.isTxn = 0)
        ∧ (roles s).count .reply ≤ 1
        ∧ (s.env.attached = true →
          (deliveries s.trace).length = s.env.dispatched
            ∨ ((deliveries s.trace).length = s.env.dispatched + 1 ∧ (roles s).count .reply = 0)) := by
  simp only [HostSound, length_filter_isTxn, length_filter_isReply, forall_isTxn_eq_false, replying_eq_false_iff_count]

/-! What most steps do to the host: some tasks end, and no event is emitted or consumed. -/

/-- From `s` to `t` no task begins, the slot is freed only with the transaction's tasks ended, and the same `Deliver` events
wait for Object Dispatch. -/
def hostKept (s t : State) : Prop :=
  (roles t).Sublist (roles s) ∧ (t.env.slot = none → s.env.slot = none ∨ (roles t).countP TaskRole.isTxn = 0)
    ∧ t.env.attached = s.env.attached ∧ t.env.dispatched = s.env.dispatched ∧ deliveries t.trace = deliveries s.trace

theorem hostKept.refl (s : State) : hostKept s s := ⟨List.Sublist.refl _, .inl, rfl, rfl, rfl⟩

theorem hostKept.trans {s t u : State} (h : hostKept s t) (h' : hostKept t u) : hostKept s u := by
  obtain ⟨hroles, hslot, ha, hd, ht⟩ := h
  obtain ⟨hroles', hslot', ha', hd', ht'⟩ := h'
  refine ⟨hroles'.trans hroles, fun hu => ?_, ha'.trans ha, hd'.trans hd, ht'.trans ht⟩
  rcases hslot' hu with hnone | hzero
  · exact (hslot hnone).imp_right fun hzero => Nat.eq_zero_of_le_zero (hroles'.countP_le.trans hzero.le)
  · exact .inr hzero

/-- The host's part is the same, and no `Deliver` event has been emitted. -/
theorem hostKept_of_env {s t : State} (henv : t.env = s.env) (htrace : deliveries t.trace = deliveries s.trace) :
    hostKept s t := by
  unfold hostKept roles
  rw [henv]
  exact ⟨List.Sublist.refl _, .inl, rfl, rfl, htrace⟩

theorem HostSound.of_hostKept {s t : State} (h : HostSound s) (hk : hostKept s t) : HostSound t := by
  rw [hostSound_iff] at h ⊢
  obtain ⟨htxn, hnone, hreply, hevents⟩ := h
  obtain ⟨hroles, hslot, ha, hd, htr⟩ := hk
  have htxn' := hroles.countP_le (p := TaskRole.isTxn)
  have hreply' := hroles.count_le .reply
  refine ⟨htxn'.trans htxn, fun hn => ?_, hreply'.trans hreply, fun hatt => ?_⟩
  · rcases hslot hn with hn' | hzero
    · exact Nat.eq_zero_of_le_zero (htxn'.trans (hnone hn').le)
    · exact hzero
  · rw [htr, hd]
    exact (hevents (ha ▸ hatt)).imp_right fun ⟨hlen, hzero⟩ => ⟨hlen, Nat.eq_zero_of_le_zero (hreply'.trans hzero.le)⟩

theorem hostKept_report (r : Report) (s : State) : hostKept s (report r s) := ⟨List.Sublist.refl _, .inl, rfl, rfl, rfl⟩

/-- A task that goes on keeps its role (R257, R261). -/
theorem hostKept_setTask {s : State} {k : Nat} {t t' : Task} (ht : s.env.tasks[k]? = some t) (hr : t'.role = t.role) :
    hostKept s (setTask k t' s) := by
  refine ⟨?_, .inl, rfl, rfl, rfl⟩
  unfold roles setTask
  dsimp only
  split
  · exact (List.eraseIdx_sublist s.env.tasks k).map _
  · rw [List.map_set, hr]
    have hget : (s.env.tasks.map Task.role)[k]? = some t.role := by rw [List.getElem?_map, ht]; rfl
    obtain ⟨hk, hk'⟩ := List.getElem?_eq_some_iff.1 hget
    rw [← hk', List.set_getElem_self]

/-- Nothing of the transaction is left when the slot is free (R264). -/
theorem hostKept_freeSlot {s t : State} (henv : t.env = s.env.freeSlot) (htrace : deliveries t.trace = deliveries s.trace) :
    hostKept s t := by
  have hroles : roles t = (s.env.tasks.filter (fun t => !t.isTxn)).map Task.role := by rw [roles, henv]; rfl
  refine ⟨?_, fun _ => .inr ?_, by rw [henv]; rfl, by rw [henv]; rfl, htrace⟩
  · rw [hroles]; exact List.filter_sublist.map _
  · rw [hroles]
    simp [List.countP_eq_zero, ← Task.isTxn_eq]

theorem hostKept_endTxn (r : Report) (s : State) : hostKept s (endTxn r s) :=
  (hostKept_freeSlot (t := { s with env := s.env.freeSlot }) rfl rfl).trans (hostKept_report r _)

theorem slotAfter_eq_none_iff (d : Deliver) (s : State) : slotAfter d s = none ↔ s.env.slot = none :=
  Option.map_eq_none_iff

theorem hostKept_takeUpdate (d : Deliver) (value : Option (List Byte)) (s : State) : hostKept s (takeUpdate d value s) := by
  rw [takeUpdate_eq]
  exact ⟨List.Sublist.refl _, fun h => .inl ((slotAfter_eq_none_iff d s).1 h), rfl, rfl, rfl⟩

/-! The moves of the tasks and of the waiting caller. -/

theorem hostKept_packNext (k : Nat) (draw : Draw) (s : State) : hostKept s (packNext k draw s) := by
  unfold packNext
  split
  · exact hostKept.refl s
  · next t ht =>
    split
    · split
      · exact hostKept_setTask ht rfl
      · unfold packFailed
        split
        · exact hostKept_setTask ht rfl
        · exact (hostKept_setTask ht (by rfl)).trans (hostKept_report _ _)
        · split
          · exact hostKept_endTxn _ s
          · exact (hostKept_setTask ht (by rfl)).trans (hostKept_report _ _)
        · exact hostKept_setTask ht rfl
    · exact hostKept.refl s
    · exact hostKept.refl s

theorem hostKept_issued {s : State} {k : Nat} {t t' : Task} (ht : s.env.tasks[k]? = some t) (hr : t'.role = t.role)
    (op : TxOp) : hostKept s (issued k t' op s) := by
  unfold issued txnIssued
  split
  · exact hostKept_setTask ht hr
  · exact (hostKept_setTask ht hr).trans (hostKept_report _ _)
  · split
    · exact hostKept_endTxn _ s
    · exact hostKept_setTask ht hr
  · split
    · exact hostKept_endTxn _ s
    · exact hostKept_setTask ht hr

theorem hostKept_wakeTxn (s : State) : hostKept s (wakeTxn s) := by
  unfold wakeTxn
  split
  · exact hostKept.refl s
  · split
    · exact hostKept_endTxn _ s
    · exact hostKept.refl s

theorem hostKept_timeoutTxn (s : State) : hostKept s (timeoutTxn s) := by
  unfold timeoutTxn
  split
  · exact hostKept.refl s
  · split
    · exact hostKept.refl s
    · exact hostKept_endTxn _ s

/-! The operations of the block other than the receive role's. -/

/-- A transmission emits no `Deliver` event and does not touch the host (R206). -/
theorem quiet_transmit {k : Kind} {objid : ObjId} {inst : Option Half} {payload : List Byte} {s t : State}
    (h : transmit k objid inst payload s = .next t) : t.env = s.env ∧ deliveries t.trace = deliveries s.trace := by
  obtain ⟨-, rfl⟩ | ⟨-, -, rfl⟩ := transmit_eq_next h
  · exact ⟨rfl, rfl⟩
  · exact ⟨rfl, by simp only [transmitted, deliveries_append, deliveries_sinks, List.append_nil]⟩

theorem hostKept_transmit {k : Kind} {objid : ObjId} {inst : Option Half} {payload : List Byte} {s t : State}
    (h : transmit k objid inst payload s = .next t) : hostKept s t :=
  hostKept_of_env (quiet_transmit h).1 (quiet_transmit h).2

theorem hostKept_exec_txInstr {k : Kind} {objid : ObjId} {inst : Option Half} {payload : List Byte} {s t : State}
    (h : exec (txInstr k objid inst payload) s = .next t) : hostKept s t := by
  rw [exec_txInstr] at h
  exact hostKept_transmit (whenInitialised_eq_next h).2

/-- An operation that changes neither the host's part nor the trace of what it finds. -/
theorem hostKept_of_whenInitialised {s t : State} {run : State → State} (henv : (run s).env = s.env)
    (htrace : (run s).trace = s.trace) (h : whenInitialised s (fun s => .next (run s)) = .next t) : hostKept s t := by
  obtain ⟨-, hrun⟩ := whenInitialised_eq_next h
  obtain rfl := Host.Outcome.next.inj hrun
  exact hostKept_of_env henv (congrArg deliveries htrace)

theorem hostKept_exec {i : Instr} (hop : i.op ∉ Op.rxByte :: frameOps) {s t : State} (h : exec i s = .next t) :
    hostKept s t := by
  cases i with
  | init mtu =>
    obtain ⟨-, rfl⟩ := eq_of_exec_init h
    exact hostKept_freeSlot rfl rfl
  | crcInit => exact hostKept_of_whenInitialised (run := fun s => respond .done { s with crcAcc := _ }) rfl rfl h
  | crcUpd b => exact hostKept_of_whenInitialised (run := fun s => setCrcAcc _ s) rfl rfl h
  | crcBlk bytes => exact hostKept_of_whenInitialised (run := fun s => setCrcAcc _ s) rfl rfl h
  | statGet => exact hostKept_of_whenInitialised (run := fun s => respond (.counters s.stats) s) rfl rfl h
  | statReset => exact hostKept_of_whenInitialised (run := fun s => respond .done { s with stats := _ }) rfl rfl h
  | txObj objid inst payload => exact hostKept_exec_txInstr (k := .obj) h
  | txObjReq objid inst payload => exact hostKept_exec_txInstr (k := .objReq) h
  | txObjAck objid inst payload => exact hostKept_exec_txInstr (k := .objAck) h
  | txAck objid inst payload => exact hostKept_exec_txInstr (k := .ack) h
  | txNack objid inst payload => exact hostKept_exec_txInstr (k := .nack) h
  | reservedOp7 | reservedOpD | reservedOpE | reservedOpF => cases h
  | rxByte | frameObj | frameObjReq | frameObjAck | frameAck | frameNack | frameReservedKind5 | frameReservedKind6
  | frameReservedKind7 => simp [Instr.op, frameOps] at hop

theorem hostKept_issueNext {k : Nat} {s t : State} (h : issueNext k s = .next t) : hostKept s t := by
  unfold issueNext at h
  split at h
  · cases h; exact hostKept.refl s
  · next task htask =>
    split at h
    · cases h; exact hostKept.refl s
    · next op _ =>
      obtain ⟨u, hissue, hu⟩ := andThen_eq_next h
      have htransmit : transmit op.kind op.objid op.inst op.payload s = .next u := by
        unfold issueOp at hissue
        split at hissue <;> (next hk => rw [hk]; exact (whenInitialised_eq_next hissue).2)
      obtain ⟨henv, -⟩ := quiet_transmit htransmit
      obtain rfl := Host.Outcome.next.inj hu
      exact (hostKept_transmit htransmit).trans (hostKept_issued (by rw [henv]; exact htask) (by rfl) op)

/-! The four other things. -/

/-- A task that begins: of a transaction only with the slot taken and no other there, a reply only with no other there and
no event to consume (R254, R264, R265). -/
theorem HostSound.addTask {s : State} {t : Task} (h : HostSound s)
    (htxn : t.role.isTxn = true → s.env.slot ≠ none ∧ (roles s).countP TaskRole.isTxn = 0)
    (hreply : t.role = .reply → (roles s).count .reply = 0 ∧ allConsumed s) : HostSound (addTask t s) := by
  cases hdone : t.isDone with
  | true => simpa only [Machine.addTask, hdone, if_true] using h
  | false =>
    have heq := addTask_of_not_done hdone s
    have hroles : roles (Machine.addTask t s) = roles s ++ [t.role] := by rw [heq]; exact List.map_append
    rw [hostSound_iff] at h ⊢
    obtain ⟨hone, hnone, hrep, hevents⟩ := h
    rw [hroles]
    simp only [List.countP_append, List.count_append, List.countP_singleton, List.count_singleton, beq_iff_eq, addTask_trace]
    refine ⟨?_, fun hn => ?_, ?_, fun ha => ?_⟩
    · split
      · next ht => rw [(htxn ht).2]
      · exact hone
    · rw [if_neg fun ht => (htxn ht).1 hn, hnone hn]
    · split
      · next ht => rw [(hreply ht).1]
      · exact hrep
    · by_cases ht : t.role = .reply
      · exact .inl ((hreply ht).2 ha)
      · rw [if_neg ht]
        exact hevents ha

theorem HostSound.beginTxn {s : State} (h : HostSound s) (hslot : s.env.slot = none) (r : TxnRequest) :
    HostSound (beginTxn r s) := by
  have hzero : (roles s).countP TaskRole.isTxn = 0 := ((hostSound_iff s).1 h).2.1 hslot
  have htaken : HostSound (setSlot (some ⟨⟨r.objid, r.instid⟩, false⟩) s) :=
    h.of_hostKept ⟨List.Sublist.refl _, nofun, rfl, rfl, rfl⟩
  unfold Machine.beginTxn
  dsimp only
  split
  · exact htaken.addTask (fun _ => ⟨nofun, hzero⟩) nofun
  · split
    · exact h.of_hostKept (hostKept_report _ s)
    · exact htaken.addTask (fun _ => ⟨nofun, hzero⟩) nofun

/-- A `Deliver` event is taken: it was the last, and is then consumed (R254). -/
theorem HostSound.consume {s : State} {d : Deliver} (h : HostSound s) (hd : canDispatch s d) :
    HostSound (consume s) ∧ (roles (consume s)).count .reply = 0 ∧ allConsumed (consume s) := by
  obtain ⟨ha, hnext, hno⟩ := hd
  have hzero : (roles s).count .reply = 0 := (replying_eq_false_iff_count s).1 ((replying_eq_false_iff s).2 hno)
  obtain ⟨hlt, -⟩ := List.getElem?_eq_some_iff.1 hnext
  rw [hostSound_iff] at h
  obtain ⟨hone, hnone, hrep, hevents⟩ := h
  have hlen : (deliveries s.trace).length = s.env.dispatched + 1 := by
    rcases hevents ha with heq | ⟨hlen, -⟩
    · omega
    · exact hlen
  exact ⟨(hostSound_iff _).2 ⟨hone, hnone, hrep, fun _ => .inl hlen⟩, hzero, fun _ => hlen⟩

theorem HostSound.dispatchDeliver {s : State} (h : HostSound s) (hzero : (roles s).count .reply = 0)
    (hall : allConsumed s) (d : Deliver) (draw : Draw) : HostSound (dispatchDeliver d draw s) := by
  unfold Machine.dispatchDeliver
  split
  · unfold dispatchObj
    split
    · exact h.of_hostKept (hostKept_report _ s)
    · exact h.of_hostKept (hostKept_takeUpdate d _ s)
  · unfold dispatchObjAck
    split
    · exact h.of_hostKept (hostKept_report _ s)
    · have hk := hostKept_takeUpdate d (unpackedValue s draw d.objid d.payload) s
      obtain ⟨hroles, -, ha, hd, htr⟩ := id hk
      dsimp only
      split
      · have hzero' := Nat.eq_zero_of_le_zero ((hroles.count_le .reply).trans hzero.le)
        refine (h.of_hostKept hk).addTask nofun fun _ => ⟨hzero', fun hatt => ?_⟩
        rw [htr, hd]
        exact hall (ha ▸ hatt)
      · exact h.of_hostKept hk
  · unfold dispatchObjReq
    split
    · exact h.addTask nofun fun _ => ⟨hzero, hall⟩
    · exact h.addTask nofun fun _ => ⟨hzero, hall⟩
  · exact h
  · exact h.of_hostKept (hostKept_takeUpdate d none s)

theorem HostSound.dispatchNext {s : State} (h : HostSound s) (draw : Draw) : HostSound (dispatchNext draw s) := by
  unfold Machine.dispatchNext
  split
  · exact h
  · next hr =>
    split
    · exact h
    · next d hd =>
      have hcan : canDispatch s d := by
        unfold nextDeliver at hd
        split at hd
        · next ha => exact ⟨ha, hd, (replying_eq_false_iff s).1 (Bool.eq_false_iff.2 hr)⟩
        · cases hd
      obtain ⟨hc, hzero, hall⟩ := h.consume hcan
      exact hc.dispatchDeliver hzero hall d draw

theorem HostSound.connect {s : State} (h : HostSound s) : HostSound (connect s) := by
  unfold Machine.connect
  split
  · exact h
  · obtain ⟨hone, hnone, hrep, -⟩ := h
    exact ⟨hone, hnone, hrep, fun _ => .inl rfl⟩

/-- A byte received while Object Dispatch has nothing to do (R254): it emits at most one event. -/
theorem HostSound.apply {s : State} (h : HostSound s) (hbusy : ¬ dispatchBusy s) (o : Effect) :
    HostSound (o.apply s) := by
  rw [hostSound_iff] at h ⊢
  obtain ⟨hone, hnone, hrep, hevents⟩ := h
  refine ⟨hone, hnone, hrep, fun ha => ?_⟩
  have ha' : s.env.attached = true := ha
  have hidle : (deliveries s.trace)[s.env.dispatched]? = none ∧ (roles s).count .reply = 0 := by
    rw [← replying_eq_false_iff_count, replying_eq_false_iff]
    simpa [dispatchBusy, ha'] using hbusy
  obtain ⟨hnext, hzero⟩ := hidle
  have hle := List.getElem?_eq_none_iff.1 hnext
  have hlen : (deliveries (o.apply s).trace).length = (deliveries s.trace).length + o.event.toList.length := by
    simp only [Effect.apply, deliveries_append, deliveries_deliver, List.length_append]
  have hle1 : o.event.toList.length ≤ 1 := by cases o.event <;> simp
  have heq := hevents ha'
  by_cases h0 : o.event.toList.length = 0
  · exact .inl (by rw [hlen]; show _ = s.env.dispatched; omega)
  · exact .inr ⟨by rw [hlen]; show _ = s.env.dispatched + 1; omega, hzero⟩

/-! Every step. -/

theorem HostSound.hostMove {s t : State} (h : HostSound s) {m : Move} (hm : hostMove m s = .next t) : HostSound t := by
  cases m with
  | objectModel objects store =>
    obtain rfl := Host.Outcome.next.inj hm
    exact h
  | connect =>
    obtain rfl := Host.Outcome.next.inj hm
    exact h.connect
  | dispatch draw =>
    obtain rfl := Host.Outcome.next.inj hm
    exact h.dispatchNext draw
  | send objid instid =>
    obtain rfl := Host.Outcome.next.inj hm
    exact h.addTask nofun nofun
  | startTxn r =>
    obtain rfl := Host.Outcome.next.inj hm
    unfold startTxn
    split
    · next hslot => exact h.beginTxn hslot r
    · exact h
  | resume k =>
    obtain rfl := Host.Outcome.next.inj hm
    unfold resumeTxn
    split
    · next r hslot _ =>
      exact HostSound.beginTxn (s := { s with env := { s.env with blocked := s.env.blocked.eraseIdx k } }) h hslot r
    · exact h
    · exact h
  | pack k draw =>
    obtain rfl := Host.Outcome.next.inj hm
    exact h.of_hostKept (hostKept_packNext k draw s)
  | issue k => exact h.of_hostKept (hostKept_issueNext hm)
  | wake =>
    obtain rfl := Host.Outcome.next.inj hm
    exact h.of_hostKept (hostKept_wakeTxn s)
  | timeout =>
    obtain rfl := Host.Outcome.next.inj hm
    exact h.of_hostKept (hostKept_timeoutTxn s)

/-- A frame row that runs as one does so with Object Dispatch not connected, which then has nothing to consume. -/
theorem HostSound.exec_frame {s t : State} (h : HostSound s) {i : Instr} (hop : i.op ∈ frameOps)
    (ha : s.env.attached = false ∨ s.initialised = false) (hexec : exec i s = .next t) : HostSound t := by
  obtain ⟨run, bytes, u, hrun, -⟩ := exec_of_mem_frameOps hop s
  have hi : s.initialised = true := (whenInitialised_eq_next (hrun ▸ hexec)).1
  have hatt : s.env.attached = false := ha.resolve_right (by rw [hi]; decide)
  obtain ⟨-, -, -, henv, -, -⟩ := blockOnly_exec (by rintro heq; simp [heq, frameOps] at hop) hexec
  obtain ⟨hone, hnone, hrep, -⟩ := h
  unfold HostSound
  rw [henv]
  exact ⟨hone, hnone, hrep, fun htrue => absurd htrue (by rw [hatt]; exact Bool.false_ne_true)⟩

theorem HostSound.runInstr {s t : State} (h : HostSound s) {i : Instr}
    (hheld : i.op ∈ Op.rxByte :: frameOps → ¬ dispatchBusy s) (hrun : runInstr i s = .next t) : HostSound t := by
  unfold Machine.runInstr at hrun
  split at hrun
  · obtain rfl := Host.Outcome.next.inj hrun
    exact h
  · next hsplit =>
    by_cases hop : i.op ∈ Op.rxByte :: frameOps
    · by_cases hbyte : i.op = .rxByte
      · cases i with
        | rxByte b =>
          obtain ⟨o, -, rfl⟩ := takes_of_exec hrun
          exact h.apply (hheld hop) o
        | _ => cases hbyte
      · have hframe : i.op ∈ frameOps := (List.mem_cons.1 hop).resolve_left hbyte
        refine h.exec_frame hframe ?_ hrun
        have hsome : (receivedBytes s.cfg i).isSome := (isSome_receivedBytes_iff s.cfg i).2 hop
        unfold splitFrame at hsplit
        split at hsplit
        · rw [hsplit] at hsome; cases hsome
        · next hcond => simpa [hbyte, or_iff_not_imp_left] using hcond
    · exact h.of_hostKept (hostKept_exec hop hrun)

theorem HostSound.runInput {s t : State} (h : HostSound s) {j : Input} (hheld : isReceive j → ¬ dispatchBusy s)
    (hrun : runInput j s = .next t) : HostSound t := by
  cases j with
  | move m => exact h.hostMove hrun
  | command word =>
    cases hd : decode word with
    | error e =>
      simp only [Machine.runInput, runCommand, hd] at hrun
      cases hrun
    | ok i =>
      refine h.runInstr (fun hop => hheld ⟨word, i, rfl, hd, hop⟩) ?_
      rw [← runCommand_of_decode hd]
      exact hrun

theorem HostSound.step {s t : State} (h : HostSound s) (hstep : step s = .next t) : HostSound t := by
  obtain hidle | ⟨j, rest, hheld, hrun⟩ := step_cases s
  · rw [hidle] at hstep
    exact Host.Outcome.next.inj hstep ▸ h
  · refine HostSound.runInput (s := { s with inputs := rest }) h (fun hrecv hbusy => ?_) (hrun ▸ hstep)
    have hheld' := (inputHeld_iff s j).2 ⟨hbusy, hrecv⟩
    rw [hheld] at hheld'
    cases hheld'

/-- Settles O50: the block's part by `step_sound`, the host's by `HostSound.step`. -/
theorem everyStepKeepsTheInvariant : Obligations.EveryStepKeepsTheInvariant := by
  intro s t hstep
  refine ⟨fun h => ?_, fun h => h.step hstep⟩
  have hsound := step_sound h
  rw [hstep] at hsound
  exact hsound

end Sys2Proof.Machine
end

section
/-! What the spec leaves unspecified is never observed (R42, R48, R49). Two states in the relation `sameVisible` are one state
with two hidden parts. The host reads no hidden part, so its moves commute with replacing it; a received byte reads of it only
the registers and the bytes that are valid in the sequencer's state, and leaves valid what it computes from them. -/

namespace Sys2Proof.Machine

open Sys2Proof.Claims

/-- The part of a state that may hold values the spec leaves unspecified. -/
structure Hidden where
  rx : RxRegs
  rxBuf : Memory
  txBuf : Memory
  txLen : Half
  freeDraws : Nat

/-- A state with another hidden part. -/
def withHidden (h : Hidden) (s : State) : State :=
  { s with rx := h.rx, rxBuf := h.rxBuf, txBuf := h.txBuf, txLen := h.txLen, freeDraws := h.freeDraws }

@[simp] theorem withHidden_env (h : Hidden) (s : State) : (withHidden h s).env = s.env := rfl

/-- States in the relation are one state with two hidden parts. -/
theorem sameVisible_iff (s t : State) : sameVisible s t ↔ ∃ h, t = withHidden h s ∧ validRegsAgree s (withHidden h s) := by
  constructor
  · obtain ⟨⟩ := s
    obtain ⟨⟩ := t
    rintro ⟨hcfg, hst, hmtu, hinit, hcrc, hstats, hresp, htrace, hcauses, hinputs, henv, hregs⟩
    dsimp only at hcfg hst hmtu hinit hcrc hstats hresp htrace hcauses hinputs henv
    subst hcfg hst hmtu hinit hcrc hstats hresp htrace hcauses hinputs henv
    exact ⟨⟨_, _, _, _, _⟩, rfl, hregs⟩
  · rintro ⟨h, rfl, hregs⟩
    exact ⟨rfl, rfl, rfl, rfl, rfl, rfl, rfl, rfl, rfl, rfl, rfl, hregs⟩

/-! Outcomes. -/

theorem Related.andThen {R : State → State → Prop} {r r' : Result} {k k' : State → Result} (h : Related R r r')
    (hk : ∀ s t, R s t → Related R (k s) (k' t)) : Related R (andThen r k) (andThen r' k') := by
  cases r with
  | next s =>
    cases r' with
    | next t => exact hk s t h
    | fault | refused => exact h.elim
  | fault f =>
    cases r' with
    | fault g => exact h
    | next | refused => exact h.elim
  | refused f =>
    cases r' with
    | refused g => exact h
    | next | fault => exact h.elim

theorem Related.whenInitialised {R : State → State → Prop} {s t : State} {run run' : State → Result}
    (hi : t.initialised = s.initialised) (h : Related R (run s) (run' t)) :
    Related R (whenInitialised s run) (whenInitialised t run') := by
  cases hs : s.initialised with
  | false =>
    rw [whenInitialised_of_false hs, whenInitialised_of_false (hi.trans hs)]
    exact rfl
  | true =>
    rw [whenInitialised_of_true hs, whenInitialised_of_true (hi.trans hs)]
    exact h

/-! The host. -/

/-- A change of the host's part that reads no hidden part. -/
def hidesNothing (f : State → State) : Prop := ∀ h s, f (withHidden h s) = withHidden h (f s)

/-- Such a change keeps two states in the relation. -/
theorem sameVisible.map {s t : State} {f : State → State} (hst : sameVisible s t) (hf : hidesNothing f)
    (hhost : hostOnly s (f s)) : sameVisible (f s) (f t) := by
  rw [sameVisible_iff] at hst ⊢
  obtain ⟨h, rfl, hregs⟩ := hst
  refine ⟨h, hf h s, ?_⟩
  obtain ⟨env, henv⟩ := hhost
  rw [henv]
  exact hregs

section
variable (h : Hidden) (s : State)

theorem setTask_withHidden (k : Nat) (t : Task) : setTask k t (withHidden h s) = withHidden h (setTask k t s) := rfl
theorem addTask_withHidden (t : Task) : addTask t (withHidden h s) = withHidden h (addTask t s) := rfl
theorem report_withHidden (r : Report) : report r (withHidden h s) = withHidden h (report r s) := rfl
theorem endTxn_withHidden (r : Report) : endTxn r (withHidden h s) = withHidden h (endTxn r s) := rfl

theorem ite_withHidden (c : Prop) [Decidable c] (s t : State) :
    (if c then withHidden h s else withHidden h t) = withHidden h (if c then s else t) := by
  split <;> rfl

theorem takeUpdate_withHidden (d : Deliver) (value : Option (List Byte)) :
    takeUpdate d value (withHidden h s) = withHidden h (takeUpdate d value s) := by
  rw [takeUpdate_eq, takeUpdate_eq]; rfl

theorem dispatchObj_withHidden (d : Deliver) (draw : Draw) :
    dispatchObj d draw (withHidden h s) = withHidden h (dispatchObj d draw s) := by
  unfold dispatchObj
  rw [takeUpdate_withHidden, report_withHidden, ite_withHidden]
  rfl

theorem dispatchObjAck_withHidden (d : Deliver) (draw : Draw) :
    dispatchObjAck d draw (withHidden h s) = withHidden h (dispatchObjAck d draw s) := by
  unfold dispatchObjAck
  dsimp only
  rw [takeUpdate_withHidden, report_withHidden, addTask_withHidden, ite_withHidden, ite_withHidden]
  rfl

theorem dispatchObjReq_withHidden (d : Deliver) :
    dispatchObjReq d (withHidden h s) = withHidden h (dispatchObjReq d s) := by
  unfold dispatchObjReq
  rw [addTask_withHidden, addTask_withHidden, ite_withHidden]
  rfl

theorem dispatchDeliver_withHidden (d : Deliver) (draw : Draw) :
    dispatchDeliver d draw (withHidden h s) = withHidden h (dispatchDeliver d draw s) := by
  unfold dispatchDeliver
  cases d.kind with
  | obj => exact dispatchObj_withHidden h s d draw
  | objAck => exact dispatchObjAck_withHidden h s d draw
  | objReq => exact dispatchObjReq_withHidden h s d
  | nack => rfl
  | ack => exact takeUpdate_withHidden h s d none

theorem dispatchNext_withHidden (draw : Draw) :
    dispatchNext draw (withHidden h s) = withHidden h (dispatchNext draw s) := by
  unfold dispatchNext
  rw [show replying (withHidden h s) = replying s from rfl, show nextDeliver (withHidden h s) = nextDeliver s from rfl]
  cases replying s with
  | true => rfl
  | false =>
    cases nextDeliver s with
    | none => rfl
    | some d => exact dispatchDeliver_withHidden h (consume s) d draw

theorem beginTxn_withHidden (r : TxnRequest) : beginTxn r (withHidden h s) = withHidden h (beginTxn r s) := by
  unfold beginTxn
  cases r.kind with
  | request => rfl
  | ackedSend =>
    rw [show targetInstances (withHidden h s) = targetInstances s from rfl]
    cases targetInstances s r.objid r.instid <;> rfl

theorem startTxn_withHidden (r : TxnRequest) : startTxn r (withHidden h s) = withHidden h (startTxn r s) := by
  unfold startTxn
  rw [withHidden_env]
  cases s.env.slot with
  | none => exact beginTxn_withHidden h s r
  | some p => rfl

theorem resumeTxn_withHidden (k : Nat) : resumeTxn k (withHidden h s) = withHidden h (resumeTxn k s) := by
  unfold resumeTxn
  rw [withHidden_env]
  cases s.env.slot with
  | some p => rfl
  | none =>
    cases s.env.blocked[k]? with
    | none => rfl
    | some r => exact beginTxn_withHidden h { s with env := { s.env with blocked := s.env.blocked.eraseIdx k } } r

theorem packFailed_withHidden (k : Nat) (t : Task) (i : Half) :
    packFailed k t i (withHidden h s) = withHidden h (packFailed k t i s) := by
  unfold packFailed
  cases t.role with
  | reply | send | request => rfl
  | ackedSend =>
    dsimp only
    rw [setTask_withHidden, report_withHidden, endTxn_withHidden, ite_withHidden]

theorem packNext_withHidden (k : Nat) (draw : Draw) :
    packNext k draw (withHidden h s) = withHidden h (packNext k draw s) := by
  unfold packNext
  rw [withHidden_env]
  cases s.env.tasks[k]? with
  | none => rfl
  | some t =>
    dsimp only
    cases t.ready with
    | some op => rfl
    | none =>
      cases t.todo with
      | nil => rfl
      | cons i rest =>
        dsimp only
        rw [show pack (withHidden h s) draw t.objid i = pack s draw t.objid i from rfl]
        cases pack s draw t.objid i with
        | some payload => rfl
        | none => exact packFailed_withHidden h s k _ i

theorem txnIssued_withHidden (k : Nat) (t : Task) : txnIssued k t (withHidden h s) = withHidden h (txnIssued k t s) := by
  unfold txnIssued
  rw [setTask_withHidden, endTxn_withHidden, ite_withHidden]
  rfl

theorem issued_withHidden (k : Nat) (t : Task) (op : TxOp) :
    issued k t op (withHidden h s) = withHidden h (issued k t op s) := by
  unfold issued
  cases t.role with
  | reply | send => rfl
  | ackedSend | request => exact txnIssued_withHidden h s k t

theorem wakeTxn_withHidden : wakeTxn (withHidden h s) = withHidden h (wakeTxn s) := by
  unfold wakeTxn
  rw [withHidden_env]
  cases s.env.slot with
  | none => rfl
  | some p =>
    dsimp only
    rw [endTxn_withHidden, ite_withHidden]
    rfl

theorem timeoutTxn_withHidden : timeoutTxn (withHidden h s) = withHidden h (timeoutTxn s) := by
  unfold timeoutTxn
  rw [withHidden_env]
  cases s.env.slot with
  | none => rfl
  | some p =>
    dsimp only
    rw [endTxn_withHidden, ite_withHidden]
    rfl

theorem connect_withHidden : connect (withHidden h s) = withHidden h (connect s) := by
  unfold connect
  rw [← ite_withHidden]
  rfl

/-- A move other than `issue` reads no hidden part. -/
theorem hostMove_withHidden {m : Move} (hm : ∀ k, m ≠ .issue k) :
    hostMove m (withHidden h s) = mapNext (withHidden h) (hostMove m s) := by
  cases m with
  | objectModel objects store => rfl
  | connect => exact congrArg Host.Outcome.next (connect_withHidden h s)
  | dispatch draw => exact congrArg Host.Outcome.next (dispatchNext_withHidden h s draw)
  | send objid instid => rfl
  | startTxn r => exact congrArg Host.Outcome.next (startTxn_withHidden h s r)
  | resume k => exact congrArg Host.Outcome.next (resumeTxn_withHidden h s k)
  | pack k draw => exact congrArg Host.Outcome.next (packNext_withHidden h s k draw)
  | issue k => exact absurd rfl (hm k)
  | wake => exact congrArg Host.Outcome.next (wakeTxn_withHidden h s)
  | timeout => exact congrArg Host.Outcome.next (timeoutTxn_withHidden h s)

end

/-- A move other than `issue` keeps two states in the relation. -/
theorem sameVisible.hostMove {s t : State} (hst : sameVisible s t) {m : Move} (hm : ∀ k, m ≠ .issue k) :
    Related sameVisible (hostMove m s) (hostMove m t) := by
  obtain ⟨h, rfl, hregs⟩ := (sameVisible_iff s t).1 hst
  obtain ⟨u, hu, env, rfl⟩ := hostMove_of_not_issue hm s
  rw [hostMove_withHidden h s hm, hu]
  exact (sameVisible_iff _ _).2 ⟨h, rfl, hregs⟩

/-! The operations of the block other than the receive role's: they read no hidden part, and the decoder's stays as it is. -/

section
variable {s t : State} (hst : sameVisible s t)
include hst

theorem sameVisible.transmit (k : Kind) (objid : ObjId) (inst : Option Half) (payload : List Byte) :
    Related sameVisible (transmit k objid inst payload s) (transmit k objid inst payload t) := by
  obtain ⟨h, rfl, hregs⟩ := (sameVisible_iff s t).1 hst
  rcases Nat.lt_or_ge s.cfg.maxPayload payload.length with hp | hp
  · rw [transmit_reject hp, transmit_reject (s := withHidden h s) hp]
    exact (sameVisible_iff _ _).2 ⟨h, rfl, hregs⟩
  · by_cases hm : s.mtu = 0
    · rw [transmit_zeroMtu hp hm, transmit_zeroMtu (s := withHidden h s) hp hm]
      exact rfl
    · rw [transmit_accept hp hm, transmit_accept (s := withHidden h s) hp hm]
      exact (sameVisible_iff _ _).2
        ⟨{ h with
            txBuf := h.txBuf.writeFrom 0 (frameBytes s.cfg k objid inst payload)
            txLen := BitVec.ofNat 16 (frameBytes s.cfg k objid inst payload).length }, rfl, hregs⟩

theorem sameVisible.exec_txInstr (k : Kind) (objid : ObjId) (inst : Option Half) (payload : List Byte) :
    Related sameVisible (exec (txInstr k objid inst payload) s) (exec (txInstr k objid inst payload) t) := by
  obtain ⟨h, rfl, -⟩ := (sameVisible_iff s t).1 hst
  rw [Machine.exec_txInstr, Machine.exec_txInstr]
  exact Related.whenInitialised rfl (hst.transmit k objid inst payload)

theorem sameVisible.exec_init (mtu : Half) : Related sameVisible (exec (.init mtu) s) (exec (.init mtu) t) := by
  obtain ⟨h, rfl, -⟩ := (sameVisible_iff s t).1 hst
  by_cases hm : mtu = 0
  · rw [hm, exec_init_zero, exec_init_zero]
    exact rfl
  · rw [Machine.exec_init hm, Machine.exec_init hm]
    exact (sameVisible_iff _ _).2
      ⟨⟨unspecifiedRx h.freeDraws, [], [], (Config.unspecified h.freeDraws 10).setWidth 16, h.freeDraws + 1⟩,
        rfl, trivial⟩

theorem sameVisible.respond (r : Response) : sameVisible (respond r s) (respond r t) := by
  obtain ⟨h, rfl, hregs⟩ := (sameVisible_iff s t).1 hst
  exact (sameVisible_iff _ _).2 ⟨h, rfl, hregs⟩

/-- An operation that always answers a next state, behind its guard. -/
theorem sameVisible.guarded {run : State → State} (hrun : sameVisible (run s) (run t)) :
    Related sameVisible (whenInitialised s fun s => .next (run s)) (whenInitialised t fun s => .next (run s)) := by
  obtain ⟨h, rfl, -⟩ := (sameVisible_iff s t).1 hst
  exact Related.whenInitialised rfl hrun

/-- An operation that is not of the receive role reads no hidden part. -/
theorem sameVisible.exec_of_not_receive {i : Instr} (hop : i.op ∉ Op.rxByte :: frameOps) :
    Related sameVisible (exec i s) (exec i t) := by
  obtain ⟨h, rfl, hregs⟩ := (sameVisible_iff s t).1 hst
  cases i with
  | init mtu => exact hst.exec_init mtu
  | crcInit => rw [exec_crcInit, exec_crcInit]; exact hst.guarded ((sameVisible_iff _ _).2 ⟨h, rfl, hregs⟩)
  | crcUpd b => rw [exec_crcUpd, exec_crcUpd]; exact hst.guarded ((sameVisible_iff _ _).2 ⟨h, rfl, hregs⟩)
  | crcBlk bytes => rw [exec_crcBlk, exec_crcBlk]; exact hst.guarded ((sameVisible_iff _ _).2 ⟨h, rfl, hregs⟩)
  | statGet => rw [exec_statGet, exec_statGet]; exact hst.guarded ((sameVisible_iff _ _).2 ⟨h, rfl, hregs⟩)
  | statReset => rw [exec_statReset, exec_statReset]; exact hst.guarded ((sameVisible_iff _ _).2 ⟨h, rfl, hregs⟩)
  | txObj objid inst payload => exact hst.exec_txInstr .obj objid inst payload
  | txObjReq objid inst payload => exact hst.exec_txInstr .objReq objid inst payload
  | txObjAck objid inst payload => exact hst.exec_txInstr .objAck objid inst payload
  | txAck objid inst payload => exact hst.exec_txInstr .ack objid inst payload
  | txNack objid inst payload => exact hst.exec_txInstr .nack objid inst payload
  | reservedOp7 | reservedOpD | reservedOpE | reservedOpF => exact rfl
  | rxByte | frameObj | frameObjReq | frameObjAck | frameAck | frameNack | frameReservedKind5 | frameReservedKind6
  | frameReservedKind7 => simp [Instr.op, frameOps] at hop

/-- Issuing an operation, and what the task then does (R257, R261). -/
theorem sameVisible.issueNext (k : Nat) : Related sameVisible (issueNext k s) (issueNext k t) := by
  obtain ⟨h, rfl, -⟩ := (sameVisible_iff s t).1 hst
  cases ht : s.env.tasks[k]? with
  | none =>
    simp only [Machine.issueNext, withHidden_env, ht]
    exact hst
  | some task =>
    cases hr : task.ready with
    | none =>
      simp only [Machine.issueNext, withHidden_env, ht, hr]
      exact hst
    | some op =>
      rw [issueNext_of_ready ht hr, issueNext_of_ready (s := withHidden h s) ht hr]
      refine Related.andThen ?_ fun u v huv =>
        huv.map (fun h s => issued_withHidden h s k _ op) (hostOnly_issued k _ op u)
      unfold issueOp
      cases op.kind <;> exact Related.whenInitialised rfl (hst.transmit _ _ _ _)

end

/-! A received byte: the registers that Table V of R42 calls valid in a state, as the form they give the hidden ones, and what
makes them valid in the next. -/

section
variable {s t : State} (hregs : validRegsAgree s t)
include hregs

theorem rx_of_type (hst : s.rxState = .type) : ∃ r : RxRegs, t.rx = { r with cs := s.rx.cs, count := s.rx.count } := by
  simp only [validRegsAgree, hst] at hregs
  obtain ⟨hcs, hcount⟩ := hregs
  exact ⟨t.rx, by rw [hcs, hcount]⟩

theorem rx_of_size (hst : s.rxState = .size) :
    ∃ r : RxRegs, t.rx
      = { r with cs := s.rx.cs, count := s.rx.count, fld := s.rx.fld, type := s.rx.type, len := s.rx.len } := by
  simp only [validRegsAgree, hst] at hregs
  obtain ⟨hcs, hcount, hfld, htype, hlen⟩ := hregs
  exact ⟨t.rx, by rw [hcs, hcount, hfld, htype, hlen]⟩

theorem rx_of_objid (hst : s.rxState = .objid) :
    ∃ r : RxRegs, t.rx
      = { r with
          cs := s.rx.cs, count := s.rx.count, fld := s.rx.fld, type := s.rx.type, len := s.rx.len
          objid := s.rx.objid } := by
  simp only [validRegsAgree, hst] at hregs
  obtain ⟨hcs, hcount, hfld, htype, hlen, hobjid⟩ := hregs
  exact ⟨t.rx, by rw [hcs, hcount, hfld, htype, hlen, hobjid]⟩

theorem rx_of_instid (hst : s.rxState = .instid) : ∃ single, t.rx = { s.rx with single := single } := by
  simp only [validRegsAgree, hst] at hregs
  exact ⟨_, hregs.symm⟩

theorem rx_of_data (hst : s.rxState = .data) :
    (∃ single, t.rx = { s.rx with single := single }) ∧ ∀ a < s.rx.fld.toNat, s.rxBuf.read a = t.rxBuf.read a := by
  simp only [validRegsAgree, hst] at hregs
  exact ⟨⟨_, hregs.1.symm⟩, hregs.2⟩

theorem rx_of_cs (hst : s.rxState = .cs) :
    (∃ single fld, t.rx = { s.rx with single := single, fld := fld })
      ∧ ∀ a < s.rx.paylen.toNat, s.rxBuf.read a = t.rxBuf.read a := by
  simp only [validRegsAgree, hst] at hregs
  exact ⟨⟨_, _, hregs.1.symm⟩, hregs.2⟩

end

section
variable {s t : State}

theorem validRegsAgree_type (hst : s.rxState = .type) (hcs : s.rx.cs = t.rx.cs) (hcount : s.rx.count = t.rx.count) :
    validRegsAgree s t := by
  simp only [validRegsAgree, hst]
  exact ⟨hcs, hcount⟩

theorem validRegsAgree_size {r : RxRegs} (hst : s.rxState = .size)
    (hrx : t.rx = { s.rx with
      objid := r.objid, found := r.found, single := r.single, paylen := r.paylen, instid := r.instid }) :
    validRegsAgree s t := by
  simp only [validRegsAgree, hst, hrx, and_self]

theorem validRegsAgree_objid {r : RxRegs} (hst : s.rxState = .objid)
    (hrx : t.rx = { s.rx with found := r.found, single := r.single, paylen := r.paylen, instid := r.instid }) :
    validRegsAgree s t := by
  simp only [validRegsAgree, hst, hrx, and_self]

/-- With every register but `rx_single` and the payload bytes taken the same, all that is valid is the same. -/
theorem validRegsAgree_of_eq {single : Bool} (hrx : t.rx = { s.rx with single := single })
    (hdata : s.rxState = .data → ∀ a < s.rx.fld.toNat, s.rxBuf.read a = t.rxBuf.read a)
    (hcs : s.rxState = .cs → ∀ a < s.rx.paylen.toNat, s.rxBuf.read a = t.rxBuf.read a) : validRegsAgree s t := by
  unfold validRegsAgree
  cases hst : s.rxState with
  | sync => exact trivial
  | type | size | objid | instid => simp [hrx]
  | data => exact ⟨by rw [hrx], hdata hst⟩
  | cs => exact ⟨by rw [hrx], hcs hst⟩

end

/-- On the state with another hidden part a byte has an outcome that differs from `o` in hidden parts only. -/
def takenAlike (b : Byte) (h : Hidden) (s : State) (o : Except Fault Effect) : Prop :=
  ∃ o', Takes b (withHidden h s).decoder o' ∧ Related sameVisible (outcomeOn s o) (outcomeOn (withHidden h s) o')

section
variable {b : Byte} {h : Hidden} {s : State}

theorem takenAlike.ok {st : RxState} {rx rx' : RxRegs} {buf buf' : Memory} {event : Option Deliver}
    {cause : Option Cause} (ht : Takes b (withHidden h s).decoder (.ok ⟨st, rx', buf', event, cause⟩))
    (hregs : validRegsAgree (Effect.apply ⟨st, rx, buf, event, cause⟩ s)
      (withHidden { h with rx := rx', rxBuf := buf' } (Effect.apply ⟨st, rx, buf, event, cause⟩ s))) :
    takenAlike b h s (.ok ⟨st, rx, buf, event, cause⟩) :=
  ⟨_, ht, (sameVisible_iff _ _).2 ⟨{ h with rx := rx', rxBuf := buf' }, rfl, hregs⟩⟩

theorem takenAlike.error {f : Fault} (ht : Takes b (withHidden h s).decoder (.error f)) : takenAlike b h s (.error f) :=
  ⟨_, ht, rfl⟩

/-- One more byte in two buffers that agree below it. -/
theorem read_write_agree {m m' : Memory} {fld : Half} (b : Byte)
    (h : ∀ a < fld.toNat, m.read a = m'.read a) :
    ∀ a < (fld + 1).toNat, (m.write fld.toNat b).read a = (m'.write fld.toNat b).read a := by
  intro a ha
  have hle : (fld + 1).toNat ≤ fld.toNat + 1 := by rw [BitVec.toNat_add]; exact Nat.mod_le _ _
  by_cases heq : a = fld.toNat
  · rw [heq, Memory.read_write_self, Memory.read_write_self]
  · rw [Memory.read_write_of_ne _ _ heq, Memory.read_write_of_ne _ _ heq]
    exact h a (by omega)

theorem readFrom_of_agree {m m' : Memory} {n : Nat} (h : ∀ a < n, m.read a = m'.read a) :
    m.readFrom 0 n = m'.readFrom 0 n :=
  Memory.readFrom_congr fun a _ ha => h a (by omega)

/-- A header about a known object goes on to `CS` only with no payload (R157). -/
theorem payLen_eq_zero_of_afterObjId {single : Bool} {n : Nat} (h : afterObjId true single n = .cs) : n = 0 := by
  rw [afterObjId_true] at h
  split_ifs at h with hs hn
  exact Nat.eq_zero_of_not_pos hn

/-- A byte reads of the hidden part only what is valid, and leaves valid what it computes from that. -/
theorem Takes.alike {o : Except Fault Effect} (ht : Takes b s.decoder o) (hregs : validRegsAgree s (withHidden h s)) :
    takenAlike b h s o := by
  obtain ⟨rx, buf, txBuf, txLen, draws⟩ := h
  cases ht with
  | ignored hst hb => exact .ok (.ignored hst hb) trivial
  | synced hst hb => exact .ok (.synced hst hb) (validRegsAgree_type rfl rfl rfl)
  | badVersion hst hv => exact .ok (.badVersion hst hv) trivial
  | badKind hst hv hk => exact .ok (.badKind hst hv hk) trivial
  | typed k hst hv hk =>
    obtain ⟨r, rfl⟩ := rx_of_type hregs hst
    exact .ok (.typed k hst hv hk) (validRegsAgree_size (r := r) rfl rfl)
  | sizeMore hst hf =>
    obtain ⟨r, rfl⟩ := rx_of_size hregs hst
    exact .ok (.sizeMore hst hf) (validRegsAgree_size (r := r) rfl rfl)
  | badRange hst hf hr =>
    obtain ⟨r, rfl⟩ := rx_of_size hregs hst
    exact .ok (.badRange hst hf hr) trivial
  | sized hst hf hr =>
    obtain ⟨r, rfl⟩ := rx_of_size hregs hst
    exact .ok (.sized hst hf hr) (validRegsAgree_objid (r := r) rfl rfl)
  | idMore hst hf =>
    obtain ⟨r, rfl⟩ := rx_of_objid hregs hst
    exact .ok (.idMore hst hf) (validRegsAgree_objid (r := r) rfl rfl)
  | badHeader c hst hf hc =>
    obtain ⟨r, rfl⟩ := rx_of_objid hregs hst
    exact .ok (.badHeader c hst hf hc) trivial
  | idUnknown hst hf hc hl =>
    obtain ⟨r, rfl⟩ := rx_of_objid hregs hst
    exact .ok (.idUnknown hst hf hc hl) (validRegsAgree_of_eq rfl nofun fun _ => nofun)
  | idKnown e hst hf hc hl =>
    obtain ⟨r, rfl⟩ := rx_of_objid hregs hst
    refine .ok (.idKnown e hst hf hc hl) (validRegsAgree_of_eq rfl (fun _ => nofun) fun hcs a ha => ?_)
    have hzero : payLen s.decoder.kind (some e) = 0 := payLen_eq_zero_of_afterObjId hcs
    have ha' : a < (BitVec.ofNat 16 (payLen s.decoder.kind (some e))).toNat := ha
    rw [hzero] at ha'
    cases ha'
  | instMore hst hf =>
    obtain ⟨single, rfl⟩ := rx_of_instid hregs hst
    exact .ok (.instMore hst hf) (validRegsAgree_of_eq rfl nofun nofun)
  | instLast hst hf =>
    obtain ⟨single, rfl⟩ := rx_of_instid hregs hst
    refine .ok (.instLast hst hf) (validRegsAgree_of_eq rfl (fun _ => nofun) fun hcs a ha => ?_)
    have hcs' : (if 0 < s.rx.paylen.toNat then RxState.data else .cs) = .cs := hcs
    have hpos : 0 < s.rx.paylen.toNat := Nat.zero_lt_of_lt ha
    rw [if_pos hpos] at hcs'
    cases hcs'
  | outside hst hf =>
    obtain ⟨⟨single, rfl⟩, -⟩ := rx_of_data hregs hst
    exact .error (.outside hst hf)
  | dataMore hst hf hl =>
    obtain ⟨⟨single, rfl⟩, hbuf⟩ := rx_of_data hregs hst
    exact .ok (.dataMore hst hf hl) (validRegsAgree_of_eq rfl (fun _ => read_write_agree b hbuf) nofun)
  | dataLast hst hf hl =>
    obtain ⟨⟨single, rfl⟩, hbuf⟩ := rx_of_data hregs hst
    exact .ok (.dataLast hst hf hl)
      (validRegsAgree_of_eq rfl nofun fun _ => hl ▸ read_write_agree b hbuf)
  | badChecksum hst hb =>
    obtain ⟨⟨single, fld, rfl⟩, -⟩ := rx_of_cs hregs hst
    exact .ok (.badChecksum hst hb) trivial
  | badCount hst hb hc =>
    obtain ⟨⟨single, fld, rfl⟩, -⟩ := rx_of_cs hregs hst
    exact .ok (.badCount hst hb hc) trivial
  | noKind hst hb hc hk =>
    obtain ⟨⟨single, fld, rfl⟩, -⟩ := rx_of_cs hregs hst
    exact .error (.noKind hst hb hc hk)
  | unwritten k hst hb hc hk hp =>
    obtain ⟨⟨single, fld, rfl⟩, hbuf⟩ := rx_of_cs hregs hst
    exact .error (.unwritten k hst hb hc hk ((readFrom_of_agree hbuf).symm.trans hp))
  | complete k payload hst hb hc hk hp =>
    obtain ⟨⟨single, fld, rfl⟩, hbuf⟩ := rx_of_cs hregs hst
    exact .ok (.complete k payload hst hb hc hk ((readFrom_of_agree hbuf).symm.trans hp)) trivial

end

section
variable {s t : State} (hst : sameVisible s t)
include hst

theorem sameVisible.rxTake (b : Byte) : Related sameVisible (rxTake b s) (rxTake b t) := by
  obtain ⟨h, rfl, hregs⟩ := (sameVisible_iff s t).1 hst
  obtain ⟨o, ho⟩ := exists_takes b s.decoder
  obtain ⟨o', ho', hrel⟩ := ho.alike hregs
  rw [rxTake_of_takes ho, rxTake_of_takes ho']
  exact hrel

theorem sameVisible.rxTakeAll (bytes : List Byte) :
    Related sameVisible (rxTakeAll bytes s) (rxTakeAll bytes t) := by
  induction bytes generalizing s t with
  | nil => exact hst
  | cons b bytes ih => exact Related.andThen (hst.rxTake b) fun u v huv => ih huv

theorem sameVisible.rxFrame (k : Kind) (objid : ObjId) (inst : Option Half) (payload : List Byte) :
    Related sameVisible (rxFrame k objid inst payload s) (rxFrame k objid inst payload t) := by
  obtain ⟨h, rfl, -⟩ := (sameVisible_iff s t).1 hst
  exact (hst.respond .done).rxTakeAll _

theorem sameVisible.rxKindCode (code : Byte) : Related sameVisible (rxKindCode code s) (rxKindCode code t) := by
  obtain ⟨h, rfl, -⟩ := (sameVisible_iff s t).1 hst
  exact hst.rxTakeAll _

/-! Every step. -/

theorem sameVisible.exec (i : Instr) : Related sameVisible (exec i s) (exec i t) := by
  by_cases hop : i.op ∈ Op.rxByte :: frameOps
  · have hi : t.initialised = s.initialised := by obtain ⟨h, rfl, -⟩ := (sameVisible_iff s t).1 hst; rfl
    cases i with
    | rxByte b => exact Related.whenInitialised hi (hst.rxTake b)
    | frameObj | frameObjReq | frameObjAck | frameAck | frameNack =>
      exact Related.whenInitialised hi (hst.rxFrame _ _ _ _)
    | frameReservedKind5 | frameReservedKind6 | frameReservedKind7 =>
      exact Related.whenInitialised hi (hst.rxKindCode _)
    | _ => simp [Instr.op, frameOps] at hop
  · exact hst.exec_of_not_receive hop

theorem sameVisible.withInputs (inputs : List Input) :
    sameVisible { s with inputs := inputs } { t with inputs := inputs } := by
  obtain ⟨h, rfl, hregs⟩ := (sameVisible_iff s t).1 hst
  exact (sameVisible_iff _ _).2 ⟨h, rfl, hregs⟩

theorem sameVisible.runInstr (i : Instr) : Related sameVisible (runInstr i s) (runInstr i t) := by
  obtain ⟨h, rfl, -⟩ := (sameVisible_iff s t).1 hst
  have hsplit : splitFrame (withHidden h s) i = splitFrame s i := rfl
  unfold Machine.runInstr
  rw [hsplit]
  cases splitFrame s i with
  | none => exact hst.exec i
  | some bytes => exact hst.withInputs (rxCommands bytes ++ s.inputs)

theorem sameVisible.runInput (j : Input) : Related sameVisible (runInput j s) (runInput j t) := by
  cases j with
  | move m =>
    by_cases hm : ∃ k, m = .issue k
    · obtain ⟨k, rfl⟩ := hm
      exact hst.issueNext k
    · exact hst.hostMove fun k hk => hm ⟨k, hk⟩
  | command word =>
    show Related sameVisible (runCommand word s) (runCommand word t)
    unfold runCommand
    cases decode word with
    | error e => exact rfl
    | ok i => exact hst.runInstr i

end

/-- Which input is next depends on no hidden part. -/
theorem takeInput_withHidden (h : Hidden) (s : State) (inputs : List Input) :
    takeInput (withHidden h s) inputs = takeInput s inputs := by
  have hheld : ∀ j, inputHeld (withHidden h s) j = inputHeld s j := fun _ => rfl
  induction inputs with
  | nil => rfl
  | cons j inputs ih => simp only [takeInput, hheld, ih]

/-- Settles O52: the next input is the same, and what runs it reads no hidden part that is not valid. -/
theorem unspecifiedValuesAreNeverObserved : Obligations.UnspecifiedValuesAreNeverObserved := by
  intro s t hst
  obtain ⟨h, rfl, -⟩ := (sameVisible_iff s t).1 hst
  have htake : takeInput (withHidden h s) (withHidden h s).inputs = takeInput s s.inputs :=
    takeInput_withHidden h s s.inputs
  unfold step
  rw [htake]
  cases takeInput s s.inputs with
  | none => exact hst
  | some taken => exact (hst.withInputs taken.2).runInput taken.1

end Sys2Proof.Machine
end
